-- ==== Sys2Proof/Word.lean ====
section
/-! DEFINITION. The word types of PF (00_scope.md R10, R11). -/

namespace Sys2Proof

/-- A PF register value: 32 bits, unsigned (R10). -/
abbrev Word := BitVec 32

/-- One byte of IN or OUT (R11). -/
abbrev Byte := BitVec 8

/-- Finite byte sequences, indexed from 0 (R11). -/
abbrev Bytes := List Byte

end Sys2Proof
end

