-- ==== Sys2Proof/Syntax.lean ====
section
/-! DEFINITION. The commands of PF: the four rows of the opcode map (30_encoding.md R92). No command has an operand field (R93). -/

namespace Sys2Proof

/-- One constructor per row of the opcode table (R92). -/
inductive Instr where
  /-- Construct and validate the page assembler (R181). -/
  | configure
  /-- Format one page from IN (R189). -/
  | programPage
  /-- Build one chunk from IN (R169). -/
  | programChunk
  /-- Run the active codec on IN (R150). -/
  | encode
  deriving DecidableEq, Repr

end Sys2Proof
end

