-- ==== Sys2Proof/WellFormed.lean ====
section
/-! DEFINITION. What a well-formed command and a well-formed CMD word are (30_encoding.md R91, R93, R97). -/

namespace Sys2Proof

/-- No command has a field (R93), so nothing about a command can be ill formed. -/
def Instr.wellFormed (i : Instr) : Bool :=
  match i with
  | .configure | .programPage | .programChunk | .encode => true

/-- RSVD, bits 31:4 of a CMD word, must be 0 (R91). -/
def rsvdClear (w : Word) : Bool := w.extractLsb' 4 28 == 0

/-- OPCODE, bits 3:0 of a CMD word, must be 1 to 4 (R92, R97). -/
def opcodeAssigned (w : Word) : Bool :=
  decide (1 ≤ (w.extractLsb' 0 4).toNat) && decide ((w.extractLsb' 0 4).toNat ≤ 4)

/-- A CMD word that is not one of R97's illegal encodings. -/
def wellFormedWord (w : Word) : Bool := rsvdClear w && opcodeAssigned w

end Sys2Proof
end

