-- ==== Sys2Proof/Decode.lean ====
section
/-! DEFINITION. The CMD word decoder and encoder (30_encoding.md R90-R92, R97). -/

namespace Sys2Proof

/-- Why a CMD word is ILLEGAL (R97). -/
inductive DecodeError where
  /-- Some bit of RSVD, bits 31:4, is 1. -/
  | reservedBits
  /-- OPCODE is 0 or 5 to 15. -/
  | unassignedOpcode
  deriving DecidableEq, Repr

/-- OPCODE, bits 3:0 of the CMD word (R91); it is also what an error records as ERR_OP (R222). -/
def opcodeField (w : Word) : BitVec 4 := w.extractLsb' 0 4

/-- RSVD, bits 31:4 of the CMD word (R91). -/
def rsvdField (w : Word) : BitVec 28 := w.extractLsb' 4 28

/-- The opcode map (R92). -/
def opcodeMap (op : BitVec 4) : Except DecodeError Instr :=
  if op = 0x1 then .ok .configure
  else if op = 0x2 then .ok .programPage
  else if op = 0x3 then .ok .programChunk
  else if op = 0x4 then .ok .encode
  else .error .unassignedOpcode

/-- R91's `decode`: RSVD first, then the opcode map. -/
def decode (w : Word) : Except DecodeError Instr :=
  if rsvdField w ≠ 0 then .error .reservedBits else opcodeMap (opcodeField w)

/-- The CMD word of each command (R92). -/
def encode (i : Instr) : Word :=
  match i with
  | .configure => 0x00000001
  | .programPage => 0x00000002
  | .programChunk => 0x00000003
  | .encode => 0x00000004

/-- The OPCODE a command carries, recorded as ERR_OP when it raises an error (R222). -/
def opcodeOf (i : Instr) : BitVec 4 := opcodeField (encode i)

/-- A word handed over as the opcode table numbers its bits: `nbits` bits of `w`, every bit above them 0.
A command is one 32-bit word (R90), moved only as a whole (20_memory.md R62), so no byte order enters. -/
def tableWord (nbits w : Nat) : Word := BitVec.ofNat 32 (w % 2 ^ nbits)

/-- What the decoder reads from a word of the opcode table. A row longer than a CMD word has no decoding (R90). -/
def decodeTableWord (nbits w : Nat) : Option Instr :=
  if nbits ≤ 32 then
    match decode (tableWord nbits w) with
    | .ok i => some i
    | .error _ => none
  else none

end Sys2Proof
end

