-- ==== Sys2Proof/Machine/Bytes.lean ====
section
/-! DEFINITION. The byte-string and size notation of 00_scope.md R11. -/

namespace Sys2Proof.Machine

/-- `rep(n, v)`: n copies of the byte v (R11). -/
def rep (n : Nat) (v : Byte) : Bytes := List.replicate n v

/-- `b[i..j)`: the bytes with index i ≤ k < j, empty when j ≤ i (R11). -/
def slice (b : Bytes) (i j : Nat) : Bytes := (b.take j).drop i

/-- `ceil_div(a, b)`: the quotient rounded up, for b > 0 (R11). -/
def ceilDiv (a b : Nat) : Nat := (a + (b - 1)) / b

/-- Right-pad `b` to `n` bytes with copies of `v` (41_chunk.md R165 and 42_page.md R185, step 1). -/
def padRight (n : Nat) (v : Byte) (b : Bytes) : Bytes := b ++ rep (n - b.length) v

/-- Left-pad `b` to `n` bytes with copies of `v` (40_codec.md R132, step 2). -/
def padLeft (n : Nat) (v : Byte) (b : Bytes) : Bytes := rep (n - b.length) v ++ b

/-- The byte of erased or reserved flash: chunk padding, BBM and every filler (42_page.md R190). -/
def erased : Byte := 0xFF

/-- The page-level padding byte, "no payload" (42_page.md R190). -/
def noPayload : Byte := 0x00

end Sys2Proof.Machine
end

