-- ==== Sys2Proof/Machine/Memory.lean ====
section
/-! DEFINITION. Buffers as lists of (offset, byte) pairs, offsets strictly rising (20_memory.md R60, R64). An offset not
listed holds no defined value (10_state.md R38, R39), so no entry can equal what an unlisted offset reads as. -/

namespace Sys2Proof.Machine

/-- The contents of IN or of OUT. -/
abbrev Buffer := List Host.Cell

/-- Every offset of `m` lies at or above `lo`, and offsets strictly rise. -/
def Buffer.risingFrom (lo : Nat) : Buffer → Bool
  | [] => true
  | c :: m => decide (lo ≤ c.1) && Buffer.risingFrom (c.1 + 1) m

/-- The canonical form: offsets strictly rising. -/
def Buffer.wf (m : Buffer) : Bool := Buffer.risingFrom 0 m

/-- Every listed offset lies inside a space of `size` bytes. -/
def Buffer.within (size : Nat) (m : Buffer) : Bool := m.all fun c => decide (c.1 < size)

/-- The byte held at offset `a`, if one is defined. -/
def Buffer.byteAt (m : Buffer) (a : Nat) : Option Byte := List.lookup a m

/-- The byte string `bs` placed at offset `a` on: byte k at a + k (R12's MemWrite). -/
def Buffer.cells (a : Nat) : Bytes → Buffer
  | [] => []
  | b :: bs => (a, b) :: Buffer.cells (a + 1) bs

/-- `MemWrite(space, a, len(bs), bs)` (R12): the cells below and above the stored bytes stay. -/
def Buffer.store (m : Buffer) (a : Nat) (bs : Bytes) : Buffer :=
  m.filter (fun c => decide (c.1 < a)) ++ Buffer.cells a bs ++ m.filter (fun c => decide (a + bs.length ≤ c.1))

end Sys2Proof.Machine
end

