-- ==== Sys2Proof/Config.lean ====
section
/-! DEFINITION. What PF's implementation or platform fixes and the spec leaves open (00_scope.md R9;
93_implementation_defined.md P1-P5), and the free values (U1, U2). Each is a constant without a body, so no proof
can see its value. Machine/Params.lean builds the parameters of R9 from them, inside the ranges R9 gives. -/

namespace Sys2Proof

/-- How far MAX_PAGE_SIZE lies above its least value (R9). -/
opaque Config.pageMargin : Nat

/-- How far MAX_OOB_SIZE lies above its least value (R9). -/
opaque Config.oobMargin : Nat

/-- How far IN_BUF_BYTES lies above its least value (R9). -/
opaque Config.inMargin : Nat

/-- How far OUT_BUF_BYTES lies above its least value (R9). -/
opaque Config.outMargin : Nat

/-- How far BCH_MAX_DATA_BYTES(t) lies above 516 (R9, R141). -/
opaque Config.bchMargin : Nat → Nat

/-- Byte `n` of BCH_ENCODE(t, data): a function of t and data alone (R142 (c)). -/
opaque Config.bchByte : Nat → Bytes → Nat → Byte

/-- REG_BASE, the platform address of REG offset 0 (R61). -/
opaque Config.regBase : Nat

/-- IN_BASE, the platform address of IN offset 0 (R61). -/
opaque Config.inBase : Nat

/-- OUT_BASE, the platform address of OUT offset 0 (R61). -/
opaque Config.outBase : Nat

/-- The draws for unspecified bytes (U1, U2): draw number `n`. Nothing constrains it. -/
opaque Config.freeByte : Nat → Byte

end Sys2Proof
end

