-- ==== Sys2Proof/Machine/Kinds.lean ====
section
/-! DEFINITION. The closed sets of names PF works with: ECC kinds and codecs (40_codec.md R120), error codes
(60_exceptions.md R221), the active configuration (10_state.md R34), and the host's accesses (20_memory.md R60-R64). -/

namespace Sys2Proof.Machine

/-- EccKind: "a closed enumeration" (00_scope.md R14, 30_encoding.md R94). -/
inductive EccKind where
  | rs
  | rsSbl
  | bch4
  | bch8
  deriving DecidableEq, Repr

/-- The BCH strength t, 4 or 8 (40_codec.md R140). -/
inductive Strength where
  | four
  | eight
  deriving DecidableEq, Repr

/-- The codec: "one closed sum type" (40_codec.md R120). -/
inductive Codec where
  | bch (t : Strength)
  | reedSolomon
  deriving DecidableEq, Repr

/-- The error causes (60_exceptions.md R221). -/
inductive ErrorCode where
  /-- E_ILLEGAL_CMD: a CMD word that decodes to ILLEGAL. -/
  | illegalCmd
  /-- E_CFG_ZERO_SIZE: CONFIGURE with PAGE_SIZE or OOB_SIZE 0. -/
  | cfgZeroSize
  /-- E_CFG_CAPACITY: CONFIGURE with a size above its maximum. -/
  | cfgCapacity
  /-- E_CFG_KIND: CONFIGURE with ECC_KIND 4 to 15. -/
  | cfgKind
  /-- E_CFG_GEOMETRY: oob_per_chunk below bbm_size + parity_size. -/
  | cfgGeometry
  /-- E_CFG_OOB_BUDGET: required above page_size + oob_size. -/
  | cfgOobBudget
  /-- E_NOT_CONFIGURED: a data command while CONFIGURED = 0. -/
  | notConfigured
  /-- E_OVERSIZE_PAGE: IN_LEN above ACT.page_size. -/
  | oversizePage
  /-- E_OVERSIZE_CHUNK: IN_LEN above ACT.du. -/
  | oversizeChunk
  /-- E_OVERSIZE_RS: a Reed-Solomon input above 1015 bytes. -/
  | oversizeRs
  /-- E_OVERSIZE_BCH: a BCH input above BCH_MAX_DATA_BYTES(t). -/
  | oversizeBch
  /-- E_IN_RANGE: IN_LEN above IN_BUF_BYTES. -/
  | inRange
  deriving DecidableEq, Repr

/-- What an error records: ERR_CODE and ERR_OP, "no address or data value" (R221, R222). -/
structure ErrorRecord where
  /-- The cause; STATUS.ERR_CODE is its number. -/
  code : ErrorCode
  /-- STATUS.ERR_OP: the OPCODE field of the command that raised it. -/
  op : BitVec 4
  deriving DecidableEq, Repr

/-- The active configuration ACT (10_state.md R34), latched by a successful CONFIGURE (R33). -/
structure Act where
  pageSize : Nat
  oobSize : Nat
  kind : EccKind
  wide : Bool
  codec : Codec
  /-- data_unit_size. -/
  du : Nat
  /-- oob_per_chunk. -/
  opc : Nat
  /-- bbm_size. -/
  bbm : Nat
  /-- parity_size of the codec. -/
  parity : Nat
  chunkSize : Nat
  bbmOffset : Nat
  chunksNeeded : Nat
  required : Nat
  deriving DecidableEq, Repr

/-- The three address spaces (20_memory.md R60). -/
inductive Space where
  | reg
  | inBuf
  | outBuf
  deriving DecidableEq, Repr

/-- Where a host access goes: an offset of a space (R60), or an address of the host's own map (R61). -/
inductive Loc where
  | offset (space : Space) (off : Nat)
  | platform (address : Nat)
  deriving DecidableEq, Repr

/-- One thing the outside does to PF: a read or a write `width` bits wide (R62, R64), or the assertion of PF's reset
input (70_reset_and_hazards.md R250). -/
inductive Access where
  | read (loc : Loc) (width : Nat)
  | write (loc : Loc) (width : Nat) (value : Word)
  | reset
  deriving DecidableEq, Repr

/-- What a host read returned: a register word or a buffer byte (R62, R64). -/
inductive ReadData where
  | word (w : Word)
  | byte (b : Byte)
  deriving DecidableEq, Repr

/-- The registers of REG (10_state.md R23). -/
inductive Reg where
  | cmd
  | status
  | pageSize
  | oobSize
  | eccCfg
  | inLen
  | outLen
  | dataUnitSize
  | oobPerChunk
  | bbmSize
  | paritySize
  | bbmOffset
  | chunksNeeded
  | required
  | codec
  deriving DecidableEq, Repr

end Sys2Proof.Machine
end

