-- ==== Sys2Proof/Machine/Params.lean ====
section
/-! DEFINITION. The implementation parameters: those the source fixes (00_scope.md R8) and those it leaves open (R9),
each open one ranging over exactly the values R9 allows (log 8, log 9). -/

namespace Sys2Proof.Machine

/-- MAX_PAGE_SIZE: at least 2048, and low enough for MAX_OOB_SIZE ≥ 64 with the sum below 2^32 (R9). -/
def maxPageSize : Nat := 2048 + Config.pageMargin % (2 ^ 32 - 2048 - 64)

/-- MAX_OOB_SIZE: at least 64, with MAX_PAGE_SIZE + MAX_OOB_SIZE below 2^32 (R9). -/
def maxOobSize : Nat := 64 + Config.oobMargin % (2 ^ 32 - 64 - maxPageSize)

/-- IN_BUF_BYTES: at least max(MAX_PAGE_SIZE, 1015) (R9). -/
def inBufBytes : Nat := max maxPageSize 1015 + Config.inMargin

/-- OUT_BUF_BYTES: at least MAX_PAGE_SIZE + MAX_OOB_SIZE (R9). -/
def outBufBytes : Nat := maxPageSize + maxOobSize + Config.outMargin

/-- The size of REG in bytes (20_memory.md R60). -/
def regBytes : Nat := 256

/-- The strength t as a number (40_codec.md R140). -/
def Strength.t (t : Strength) : Nat :=
  match t with
  | .four => 4
  | .eight => 8

/-- BCH_MAX_DATA_BYTES(t): at least 516 (R9, R141). -/
def bchMaxDataBytes (t : Strength) : Nat := 516 + Config.bchMargin t.t

/-- The parity bytes of BCH strength t: ceil_div(13·t, 8) (R8, R122). -/
def bchParitySize (t : Strength) : Nat := ceilDiv (13 * t.t) 8

/-- BCH_ENCODE(t, data): an open function of t and data of the length R142 (b) gives. -/
def bchEncode (t : Strength) (data : Bytes) : Bytes :=
  (List.range (bchParitySize t)).map (Config.bchByte t.t data)

/-- BCH_ZERO (R142 (d)), named and never assumed: a claim that uses it states it as a premise. -/
def BchZero : Prop :=
  ∀ (t : Strength) (n : Nat), n ≤ bchMaxDataBytes t → bchEncode t (rep n 0x00) = rep (bchParitySize t) 0x00

/-- The longest Reed-Solomon message, in symbols and in input bytes (R8). -/
def rsMessageLength : Nat := 1015

/-- The bytes of Reed-Solomon parity (R8, R122). -/
def rsParitySize : Nat := 10

end Sys2Proof.Machine
end

