-- ==== Sys2Proof/Machine/State.lean ====
section
/-! DEFINITION. The state of PF (10_state.md), the reasons a step can stop, and the state after reset (R40). -/

namespace Sys2Proof.Machine

/-- Everything PF holds (10_state.md R23-R39), the host accesses still to come, and two fields of the model's own
(`readData`, `freeCount`). CMD holds nothing (R24); STATUS, the geometry registers and CODEC are read off the fields
below (Machine/Flags.lean, Machine/Operands.lean). -/
structure State where
  /-- PAGE_SIZE (R26). -/
  pageSize : Word
  /-- OOB_SIZE (R26). -/
  oobSize : Word
  /-- ECC_CFG.ECC_KIND (R28). -/
  eccKind : BitVec 4
  /-- ECC_CFG.WIDE_BUS (R28). -/
  wideBus : Bool
  /-- IN_LEN (R27). -/
  inLen : Word
  /-- OUT_LEN (R29). -/
  outLen : Word
  /-- STATUS.OUT_VALID (R25). -/
  outValid : Bool
  /-- STATUS.ERR, ERR_CODE and ERR_OP (R25): `none` while ERR_CODE = 0. -/
  err : Option ErrorRecord
  /-- ACT (R34), and with it STATUS.CONFIGURED: ACT is valid exactly when CONFIGURED = 1 (R34). -/
  act : Option Act
  /-- IN: the bytes the host wrote since reset (R38). A byte not listed holds no defined value. -/
  inBuf : List Host.Cell
  /-- OUT: the bytes commands wrote since reset (R39). -/
  outBuf : List Host.Cell
  /-- MODEL: the host accesses still to come, oldest first (R20, R72; log 1). -/
  pending : List Access
  /-- MODEL: what the latest host read returned (log 2). -/
  readData : Option ReadData
  /-- MODEL: how many draws of unspecified bytes have been used (U1, U2; log 3). -/
  freeCount : Nat
  deriving DecidableEq, Repr

/-- Why PF stops: the host made an access the spec refuses, for which the model has no step (20_memory.md R62-R64,
60_exceptions.md R226; U3). Each is raised by Machine/Bus.lean only, never by a command. All are safe: the model stops
where a hardware implementation may do anything short of changing PF state. -/
inductive Fault where
  /-- A REG access that is not 32 bits wide (R62). Safe. -/
  | regWidth
  /-- A REG access at an offset that is not a multiple of 4 (R62). Safe. -/
  | regMisaligned
  /-- A REG access at a reserved offset, 0x3C to 0xFC (R63). Safe. -/
  | regReserved
  /-- A REG access beyond the 256 bytes of REG (R60, R62). Safe. -/
  | regRange
  /-- An IN or OUT access that is not 8 bits wide (R64). Safe. -/
  | bufferWidth
  /-- An IN or OUT access at or beyond the space's size (R64). Safe. -/
  | bufferRange
  deriving DecidableEq, Repr

/-- Why the model gives no meaning. -/
inductive Refusal where
  /-- Raised by an arm of exec whose command has no meaning yet; no arm does. Safe. -/
  | notModelled (mnemonic : String)
  /-- Raised by Machine/Bus.lean for a platform address outside the windows of REG, IN and OUT: the access is not to PF
  and the spec says nothing of what is there (R61). Safe. -/
  | addressOutsidePF
  /-- Raised by Machine/Bus.lean for a platform address inside more than one of PF's windows: R61 leaves the placement to
  the platform and does not say which space answers. Safe. -/
  | addressAmbiguous
  deriving DecidableEq, Repr

/-- PF right after reset (R40): PAGE_SIZE 2048, OOB_SIZE 64, ECC_CFG 2, everything else 0 or empty. The three model
fields start empty (log 1, log 2, log 3). -/
def State.reset : State where
  pageSize := 0x00000800
  oobSize := 0x00000040
  eccKind := 2
  wideBus := false
  inLen := 0
  outLen := 0
  outValid := false
  err := none
  act := none
  inBuf := []
  outBuf := []
  pending := []
  readData := none
  freeCount := 0

end Sys2Proof.Machine
end

