-- ==== Sys2Proof/Machine/Ops.lean ====
section
/-! DEFINITION. The named operations over PF's state: buffer accesses with their free values, the start and the end of a
command, taking an error (60_exceptions.md R222), leaving the error state (R225), and reset (R250). -/

namespace Sys2Proof.Machine

/-- The value of an IN byte when it is read: the byte last written, else draw number `draw` of the unspecified bytes
(10_state.md R38, 20_memory.md R64, U1). -/
def inByte (s : State) (a draw : Nat) : Byte :=
  match Buffer.byteAt s.inBuf a with
  | some b => b
  | none => Config.freeByte draw

/-- `MemRead(IN, 0, n)` (R65): byte k of an unwritten IN is draw freeCount + k, so the whole string is one fresh draw. -/
def readIn (s : State) (n : Nat) : Bytes := (List.range n).map fun k => inByte s k (s.freeCount + k)

/-- Account for `n` draws, so that no later read reuses them (R71). -/
def drew (n : Nat) (s : State) : State := { s with freeCount := s.freeCount + n }

/-- The defined value of OUT[a]: a result byte while OUT_VALID = 1 and a < OUT_LEN, none otherwise (10_state.md R39). -/
def outDefined (s : State) (a : Nat) : Option Byte :=
  if s.outValid = true ∧ a < s.outLen.toNat then Buffer.byteAt s.outBuf a else none

/-- The value of an OUT byte when the host reads it (R64, U2). -/
def outByte (s : State) (a draw : Nat) : Byte :=
  match outDefined s a with
  | some b => b
  | none => Config.freeByte draw

/-- A host write of one IN byte (R64). -/
def writeInByte (a : Nat) (b : Byte) (s : State) : State := { s with inBuf := Buffer.store s.inBuf a [b] }

/-- `STATUS.OUT_VALID <- 0; REG.OUT_LEN <- 0`, the first line of every executed command (R37, R223). -/
def clearResult (s : State) : State := { s with outValid := false, outLen := 0 }

/-- `raise Error(c)` (R222), for a command word with OPCODE `op`: the first error wins, the result is cleared, and
nothing else is written. -/
def raiseError (c : ErrorCode) (op : BitVec 4) (s : State) : State :=
  { s with
    err := match s.err with
      | none => some { code := c, op := op }
      | some e => some e
    outValid := false
    outLen := 0 }

/-- Leaving the error state and dropping the old instance: the start of every CONFIGURE (R181, R225). -/
def dropInstance (s : State) : State :=
  { s with act := none, err := none, outValid := false, outLen := 0 }

/-- A command's success with a result: `MemWrite(OUT, 0, n, r)`, OUT_LEN and OUT_VALID (R29, R65). -/
def complete (r : Bytes) (n : Nat) (s : State) : State :=
  { s with outBuf := Buffer.store s.outBuf 0 r, outLen := BitVec.ofNat 32 n, outValid := true }

/-- The error-state gate of dispatch (R223): while an error is recorded a command other than CONFIGURE is dropped and
changes no state at all. -/
def unlessError (s : State) (run : State → State) : State :=
  match s.err with
  | some _ => s
  | none => run s

/-- What a data command (PROGRAM_PAGE, PROGRAM_CHUNK, ENCODE) is made of. -/
structure DataCommand where
  /-- Which command it is; its OPCODE is what an error records. -/
  instr : Instr
  /-- The largest IN_LEN the active configuration accepts. -/
  limit : Act → Nat
  /-- The error of a longer input. -/
  oversize : Act → ErrorCode
  /-- The pure function of ACT and the input bytes. -/
  run : Act → Bytes → Except ErrorCode Bytes
  /-- The number of result bytes, which becomes OUT_LEN. -/
  size : Act → Nat

/-- The end of a data command whose input has been read: the result, or the error the pure function raised. -/
def finish (c : DataCommand) (a : Act) (x : Bytes) (s : State) : State :=
  match c.run a x with
  | .ok r => complete r (c.size a) s
  | .error e => raiseError e (opcodeOf c.instr) s

/-- The body shared by the three data commands (R150, R169, R189): clear the result; E_NOT_CONFIGURED; the source's size
limit; E_IN_RANGE (R66, R224); read IN; run; write OUT. -/
def dataBody (c : DataCommand) (s : State) : State :=
  match s.act with
  | none => raiseError .notConfigured (opcodeOf c.instr) (clearResult s)
  | some a =>
    if c.limit a < s.inLen.toNat then raiseError (c.oversize a) (opcodeOf c.instr) (clearResult s)
    else if inBufBytes < s.inLen.toNat then raiseError .inRange (opcodeOf c.instr) (clearResult s)
    else finish c a (readIn s s.inLen.toNat) (drew s.inLen.toNat (clearResult s))

/-- A data command as a CMD write issues it: behind the error-state gate (R223). -/
def dataCommand (c : DataCommand) (s : State) : State := unlessError s (dataBody c)

/-- A CMD write whose word decodes to ILLEGAL (R223, R97), `op` being w[3:0]. -/
def illegalCommand (op : BitVec 4) (s : State) : State :=
  unlessError s fun s => raiseError .illegalCmd op (clearResult s)

/-- The assertion of PF's reset input (R250): every piece of PF's state takes its reset value. What is not PF's stays:
the host's accesses to come, the data it last read, and the draws already used (log 3, log 13). -/
def resetPF (s : State) : State :=
  { State.reset with pending := s.pending, readData := s.readData, freeCount := s.freeCount }

end Sys2Proof.Machine
end

