-- ==== Sys2Proof/Machine/Galois.lean ====
section
/-! DEFINITION. GF(2^10) arithmetic and the Reed-Solomon generator polynomial (40_codec.md R126-R129). -/

namespace Sys2Proof.Machine

/-- An element of GF(2^10), one Reed-Solomon symbol (R126). -/
abbrev Sym := BitVec 10

/-- `a <- a << 1` (11 bits) and, if bit 10 is set, `a <- a ⊕ 0x409` (R126): multiplication by x. -/
def xtime (a : Sym) : Sym :=
  let d : BitVec 11 := a.setWidth 11 <<< 1
  (if d.getLsbD 10 then d ^^^ 0x409#11 else d).setWidth 10

/-- One turn of R126's loop for bit i of b, on the pair (r, a). -/
def gfmulTurn (b : Sym) (ra : Sym × Sym) (i : Nat) : Sym × Sym :=
  (if b.getLsbD i then ra.1 ^^^ ra.2 else ra.1, xtime ra.2)

/-- `gfmul(a, b)` (R126). -/
def gfmul (a b : Sym) : Sym := ((List.range 10).foldl (gfmulTurn b) (0, a)).1

/-- The primitive element α = 0x002 (R127). -/
def alpha : Sym := 0x002

/-- α^i: α^0 = 1 and α^(i+1) = gfmul(α^i, α) (R127). -/
def alphaPow : Nat → Sym
  | 0 => 0x001
  | i + 1 => gfmul (alphaPow i) alpha

/-- The coefficients g[0..8] of the generator polynomial, highest degree first (R128). -/
def generator : List Sym := [0x001, 0x1FE, 0x033, 0x143, 0x297, 0x3A0, 0x03A, 0x24B, 0x344]

/-- A polynomial (highest degree first) times (x ⊕ root). -/
def mulRoot (p : List Sym) (root : Sym) : List Sym :=
  List.zipWith (fun a b => a ^^^ b) (p ++ [0]) (0 :: p.map (fun c => gfmul c root))

/-- The product (x ⊕ α^1) … (x ⊕ α^n), highest degree first (R128). -/
def rootProduct : Nat → List Sym
  | 0 => [0x001]
  | n + 1 => mulRoot (rootProduct n) (alphaPow (n + 1))

/-- The value of a polynomial (highest degree first) at a point, by Horner's rule (R129). -/
def polyEval (p : List Sym) (x : Sym) : Sym := p.foldl (fun acc c => gfmul acc x ^^^ c) 0

end Sys2Proof.Machine
end

