-- ==== Sys2Proof/Machine/ReedSolomon.lean ====
section
/-! DEFINITION. The Reed-Solomon encoder RS_ENCODE and its packing (40_codec.md R129-R132, 30_encoding.md R103). -/

namespace Sys2Proof.Machine

/-- Step 3 (R130): each byte becomes the symbol zext_10(b). -/
def toSymbols (m : Bytes) : List Sym := m.map fun b => b.setWidth 10

/-- One turn of step 4's loop (R132) on the remainder r[0..7]: f = s ⊕ r[0]; r[j] = r[j+1] ⊕ f ⊗ g[j+1];
r[7] = f ⊗ g[8]. -/
def rsTurn (r : List Sym) (s : Sym) : List Sym :=
  List.zipWith (fun next term => next ^^^ term) (r.tail ++ [0]) (generator.tail.map (gfmul (s ^^^ r.headD 0)))

/-- The remainder register before the first symbol (R132, step 4). -/
def rsZero : List Sym := List.replicate 8 0

/-- S(x)·x^8 mod g(x) for the message symbols, highest degree first (R129, R132 step 4). -/
def rsRemainder (ss : List Sym) : List Sym := ss.foldl rsTurn rsZero

/-- The 80-bit value of R131: p[0] in bits 79:70, p[7] in bits 9:0. -/
def packBits (p : List Sym) : BitVec 80 := p.foldl (fun v c => (v <<< 10) ||| c.setWidth 80) 0

/-- `PACK10(p)` (R131): byte n is bits 79 − 8n down to 72 − 8n. -/
def pack10 (p : List Sym) : Bytes := (List.range 10).map fun n => (packBits p).extractLsb' (72 - 8 * n) 8

/-- The 1015 message symbols of an input (R132 steps 2 and 3). -/
def rsMessage (data : Bytes) : List Sym := toSymbols (padLeft rsMessageLength 0x00 data)

/-- The 8 parity symbols of an input (R129, R132 step 4). -/
def rsParity (data : Bytes) : List Sym := rsRemainder (rsMessage data)

/-- `RS_ENCODE(data)` (R132). -/
def rsEncode (data : Bytes) : Except ErrorCode Bytes :=
  if rsMessageLength < data.length then .error .oversizeRs else .ok (pack10 (rsParity data))

end Sys2Proof.Machine
end

