-- ==== Sys2Proof/Machine/Codec.lean ====
section
/-! DEFINITION. The codec abstraction (40_codec.md R120-R125, R143) and the ENCODE command (R150). -/

namespace Sys2Proof.Machine

/-- Codec selection (R121). -/
def EccKind.codec (k : EccKind) : Codec :=
  match k with
  | .rs => .reedSolomon
  | .rsSbl => .reedSolomon
  | .bch4 => .bch .four
  | .bch8 => .bch .eight

/-- `PARITY_SIZE_OF(codec)` (R122, R125). -/
def Codec.paritySize (c : Codec) : Nat :=
  match c with
  | .bch t => bchParitySize t
  | .reedSolomon => rsParitySize

/-- The longest input the codec accepts (R132, R141). -/
def Codec.maxInput (c : Codec) : Nat :=
  match c with
  | .bch t => bchMaxDataBytes t
  | .reedSolomon => rsMessageLength

/-- The error of a longer input (R132, R143). -/
def Codec.oversize (c : Codec) : ErrorCode :=
  match c with
  | .bch _ => .oversizeBch
  | .reedSolomon => .oversizeRs

/-- `BCH_ENCODE_OP(t, data)` (R143). -/
def bchEncodeOp (t : Strength) (data : Bytes) : Except ErrorCode Bytes :=
  if bchMaxDataBytes t < data.length then .error .oversizeBch else .ok (bchEncode t data)

/-- `CODEC_ENCODE(codec, data)` (R125). -/
def codecEncode (c : Codec) (data : Bytes) : Except ErrorCode Bytes :=
  match c with
  | .bch t => bchEncodeOp t data
  | .reedSolomon => rsEncode data

/-- ENCODE as a data command: the codec's limit and error, no padding, ACT.parity result bytes (R150). -/
def encodeCommand : DataCommand where
  instr := .encode
  limit a := a.codec.maxInput
  oversize a := a.codec.oversize
  run a x := codecEncode a.codec x
  size a := a.parity

/-- ENCODE (R150). -/
def execEncode (s : State) : Host.Outcome State Fault Refusal := .next (dataCommand encodeCommand s)

end Sys2Proof.Machine
end

