-- ==== Sys2Proof/Machine/Chunk.lean ====
section
/-! DEFINITION. The chunk assembler CHUNK_PROGRAM (41_chunk.md R160-R168) and the PROGRAM_CHUNK command (R169). -/

namespace Sys2Proof.Machine

/-- data_unit_size of each kind (R161). -/
def EccKind.dataUnit (k : EccKind) : Nat :=
  match k with
  | .rs => 516
  | .rsSbl => 512
  | .bch4 => 516
  | .bch8 => 516

/-- oob_per_chunk of each kind (R161). -/
def EccKind.oobPerChunk (k : EccKind) : Nat :=
  match k with
  | .rs => 12
  | .rsSbl => 16
  | .bch4 => 12
  | .bch8 => 16

/-- bbm_size (R161). -/
def bbmSize (wide : Bool) : Nat := if wide then 2 else 1

/-- The insertion point of the BBM reservation: e = min(bbm_offset, du) (R164). -/
def insertionPoint (a : Act) : Nat := min a.bbmOffset a.du

/-- The padded data unit d (R165, step 1). -/
def paddedUnit (a : Act) (u : Bytes) : Bytes := padRight a.du erased u

/-- Steps 3 and 4: the chunk of a padded data unit and its parity (R165). -/
def layChunk (a : Act) (d parity : Bytes) : Bytes :=
  slice d 0 (insertionPoint a) ++ rep a.bbm erased ++ slice d (insertionPoint a) a.du ++ parity
    ++ rep (a.opc - a.bbm - a.parity) erased

/-- `CHUNK_PROGRAM(u)` (R165). -/
def chunkProgram (a : Act) (u : Bytes) : Except ErrorCode Bytes :=
  if a.du < u.length then .error .oversizeChunk
  else
    match codecEncode a.codec (paddedUnit a u) with
    | .error e => .error e
    | .ok parity => .ok (layChunk a (paddedUnit a u) parity)

/-- PROGRAM_CHUNK as a data command (R169). -/
def chunkCommand : DataCommand where
  instr := .programChunk
  limit a := a.du
  oversize _ := .oversizeChunk
  run := chunkProgram
  size a := a.chunkSize

/-- PROGRAM_CHUNK (R169). -/
def execProgramChunk (s : State) : Host.Outcome State Fault Refusal := .next (dataCommand chunkCommand s)

end Sys2Proof.Machine
end

