-- ==== Sys2Proof/Machine/Configure.lean ====
section
/-! DEFINITION. The CONFIGURE command: geometry, validation and latching (42_page.md R181-R184). -/

namespace Sys2Proof.Machine

/-- ECC_KIND's encoding (30_encoding.md R94): 4 to 15 are reserved. -/
def kindOf (k : BitVec 4) : Option EccKind :=
  if k = 0 then some .rs
  else if k = 1 then some .rsSbl
  else if k = 2 then some .bch4
  else if k = 3 then some .bch8
  else none

/-- chunk_size of a kind (R163). -/
def EccKind.chunkSize (k : EccKind) : Nat := k.dataUnit + k.oobPerChunk

/-- The ACT of sizes, kind and bus width (R181, 10_state.md R34). -/
def buildAct (pageSize oobSize : Nat) (kind : EccKind) (wide : Bool) : Act where
  pageSize := pageSize
  oobSize := oobSize
  kind := kind
  wide := wide
  codec := kind.codec
  du := kind.dataUnit
  opc := kind.oobPerChunk
  bbm := bbmSize wide
  parity := kind.codec.paritySize
  chunkSize := kind.chunkSize
  bbmOffset := pageSize % kind.chunkSize
  chunksNeeded := ceilDiv pageSize kind.dataUnit
  required := ceilDiv pageSize kind.dataUnit * kind.chunkSize

/-- The checks on a built ACT, in order: the geometry invariant (41_chunk.md R162), then the OOB budget (R182). -/
def checkAct (a : Act) : Except ErrorCode Act :=
  if a.opc < a.bbm + a.parity then .error .cfgGeometry
  else if a.pageSize + a.oobSize < a.required then .error .cfgOobBudget
  else .ok a

/-- CONFIGURE's checks and the ACT it builds, in the order of R181 and R224, on unbounded naturals (R182). -/
def configureAct (pageSize oobSize : Nat) (k : BitVec 4) (wide : Bool) : Except ErrorCode Act :=
  if pageSize = 0 ∨ oobSize = 0 then .error .cfgZeroSize
  else if maxPageSize < pageSize ∨ maxOobSize < oobSize then .error .cfgCapacity
  else
    match kindOf k with
    | none => .error .cfgKind
    | some kind => checkAct (buildAct pageSize oobSize kind wide)

/-- Latching (R183): ACT in full, CONFIGURED = 1 and OUT_VALID = 1, OUT_LEN staying 0. -/
def latch (a : Act) (s : State) : State := { s with act := some a, outValid := true }

/-- CONFIGURE's effect (R181), in the error state too (R223). -/
def configureCommand (s : State) : State :=
  match configureAct s.pageSize.toNat s.oobSize.toNat s.eccKind s.wideBus with
  | .ok a => latch a (dropInstance s)
  | .error e => raiseError e (opcodeOf .configure) (dropInstance s)

/-- CONFIGURE (R181). -/
def execConfigure (s : State) : Host.Outcome State Fault Refusal := .next (configureCommand s)

end Sys2Proof.Machine
end

