-- ==== Sys2Proof/Machine/Page.lean ====
section
/-! DEFINITION. The page assembler PAGE_PROGRAM (42_page.md R185-R188) and the PROGRAM_PAGE command (R189). -/

namespace Sys2Proof.Machine

/-- The padded page y (R185, step 1). -/
def paddedPage (a : Act) (x : Bytes) : Bytes := padRight a.pageSize noPayload x

/-- Slice k of the padded page: y[k·du .. min((k+1)·du, page_size)) (R185 step 3, R186). -/
def pageSlice (a : Act) (y : Bytes) (k : Nat) : Bytes := slice y (k * a.du) (min ((k + 1) * a.du) a.pageSize)

/-- The first n chunks of the padded page y, concatenated in order (R185, step 3). -/
def pageChunks (a : Act) (y : Bytes) : Nat → Except ErrorCode Bytes
  | 0 => .ok []
  | n + 1 =>
    match pageChunks a y n with
    | .error e => .error e
    | .ok out =>
      match chunkProgram a (pageSlice a y n) with
      | .error e => .error e
      | .ok c => .ok (out ++ c)

/-- `PAGE_PROGRAM(x)` (R185): steps 2, 1, 3 and 4. -/
def pageProgram (a : Act) (x : Bytes) : Except ErrorCode Bytes :=
  if a.pageSize < x.length then .error .oversizePage
  else
    match pageChunks a (paddedPage a x) a.chunksNeeded with
    | .error e => .error e
    | .ok out => .ok (padRight (a.pageSize + a.oobSize) erased out)

/-- PROGRAM_PAGE as a data command (R189). -/
def pageCommand : DataCommand where
  instr := .programPage
  limit a := a.pageSize
  oversize _ := .oversizePage
  run := pageProgram
  size a := a.pageSize + a.oobSize

/-- PROGRAM_PAGE (R189). -/
def execProgramPage (s : State) : Host.Outcome State Fault Refusal := .next (dataCommand pageCommand s)

end Sys2Proof.Machine
end

