-- ==== Sys2Proof/Machine/Dispatch.lean ====
section
/-! DEFINITION. One arm per command. -/

namespace Sys2Proof.Machine

-- What a write of the command's CMD word does, the error-state gate of dispatch (60_exceptions.md R223) included.
def exec (i : Instr) (s : State) : Host.Outcome State Fault Refusal :=
  match i with
  | .configure => Sys2Proof.Machine.execConfigure s
  | .programPage => Sys2Proof.Machine.execProgramPage s
  | .programChunk => Sys2Proof.Machine.execProgramChunk s
  | .encode => Sys2Proof.Machine.execEncode s

end Sys2Proof.Machine
end

