-- ==== Sys2Proof/Machine/Flags.lean ====
section
/-! DEFINITION. The flag and code words a host can read: STATUS (10_state.md R25, 60_exceptions.md R221) and CODEC (R31). -/

namespace Sys2Proof.Machine

/-- A field with its bit 0 at bit `lo` of a register word, every other bit 0 (00_scope.md R10). -/
def place {n : Nat} (lo : Nat) (field : BitVec n) : Word := field.setWidth 32 <<< lo

/-- The numeric error codes (R221). -/
def ErrorCode.number (c : ErrorCode) : BitVec 8 :=
  match c with
  | .illegalCmd => 0x01
  | .cfgZeroSize => 0x02
  | .cfgCapacity => 0x03
  | .cfgKind => 0x04
  | .cfgGeometry => 0x05
  | .cfgOobBudget => 0x06
  | .notConfigured => 0x07
  | .oversizePage => 0x08
  | .oversizeChunk => 0x09
  | .oversizeRs => 0x0A
  | .oversizeBch => 0x0B
  | .inRange => 0x0C

/-- STATUS.CONFIGURED (R25, R34). -/
def configured (s : State) : Bool := s.act.isSome

/-- STATUS.ERR_CODE: 0 while no error is recorded (R25). -/
def errCode (s : State) : BitVec 8 :=
  match s.err with
  | none => 0
  | some e => e.code.number

/-- STATUS.ERR_OP: 0 while no error is recorded (R25). -/
def errOp (s : State) : BitVec 4 :=
  match s.err with
  | none => 0
  | some e => e.op

/-- STATUS.ERR: 1 when ERR_CODE ≠ 0 (R25). -/
def errFlag (s : State) : Bool := errCode s != 0

/-- The STATUS word: CONFIGURED[0], OUT_VALID[1], ERR[2], ERR_CODE[15:8], ERR_OP[19:16], reserved bits 0 (R25). -/
def statusWord (s : State) : Word :=
  place 0 (BitVec.ofBool (configured s)) ||| place 1 (BitVec.ofBool s.outValid) |||
    place 2 (BitVec.ofBool (errFlag s)) ||| place 8 (errCode s) ||| place 16 (errOp s)

/-- CODEC.CODEC_ID: 1 BCH, 2 Reed-Solomon, 0 unconfigured (R31). -/
def codecId (s : State) : BitVec 2 :=
  match s.act with
  | none => 0
  | some a =>
    match a.codec with
    | .bch _ => 1
    | .reedSolomon => 2

/-- CODEC.BCH_STRENGTH: t for the BCH variant, 0 otherwise (R31). -/
def bchStrength (s : State) : BitVec 8 :=
  match s.act with
  | none => 0
  | some a =>
    match a.codec with
    | .bch t => BitVec.ofNat 8 t.t
    | .reedSolomon => 0

/-- The CODEC word: CODEC_ID[1:0], BCH_STRENGTH[15:8], other bits 0 (R31). -/
def codecWord (s : State) : Word := place 0 (codecId s) ||| place 8 (bchStrength s)

end Sys2Proof.Machine
end

