-- ==== Sys2Proof/Machine/Operands.lean ====
section
/-! DEFINITION. PF's registers as the host and the commands see them (10_state.md R23-R32, 30_encoding.md R93-R96), and
the byte lanes of a register word (20_memory.md R69). -/

namespace Sys2Proof.Machine

/-- The REG offset of each register (R23). -/
def Reg.offset (r : Reg) : Nat :=
  match r with
  | .cmd => 0x00
  | .status => 0x04
  | .pageSize => 0x08
  | .oobSize => 0x0C
  | .eccCfg => 0x10
  | .inLen => 0x14
  | .outLen => 0x18
  | .dataUnitSize => 0x1C
  | .oobPerChunk => 0x20
  | .bbmSize => 0x24
  | .paritySize => 0x28
  | .bbmOffset => 0x2C
  | .chunksNeeded => 0x30
  | .required => 0x34
  | .codec => 0x38

/-- The registers in the order of the map (R23). -/
def Reg.all : List Reg :=
  [.cmd, .status, .pageSize, .oobSize, .eccCfg, .inLen, .outLen, .dataUnitSize, .oobPerChunk, .bbmSize, .paritySize,
    .bbmOffset, .chunksNeeded, .required, .codec]

/-- The register at a REG offset, if one is defined there (R23). -/
def regAt (off : Nat) : Option Reg := Reg.all.find? fun r => r.offset == off

/-- ECC_CFG as it reads: ECC_KIND[3:0], WIDE_BUS[8], reserved bits 0 (R28). -/
def eccCfgWord (s : State) : Word := place 0 s.eccKind ||| place 8 (BitVec.ofBool s.wideBus)

/-- A geometry register: a field of ACT while CONFIGURED = 1, else 0 (R30). -/
def geometryWord (s : State) (field : Act → Nat) : Word :=
  match s.act with
  | none => 0
  | some a => BitVec.ofNat 32 (field a)

/-- A host read of a register (R23-R31). -/
def readReg (r : Reg) (s : State) : Word :=
  match r with
  | .cmd => 0
  | .status => statusWord s
  | .pageSize => s.pageSize
  | .oobSize => s.oobSize
  | .eccCfg => eccCfgWord s
  | .inLen => s.inLen
  | .outLen => s.outLen
  | .dataUnitSize => geometryWord s Act.du
  | .oobPerChunk => geometryWord s Act.opc
  | .bbmSize => geometryWord s Act.bbm
  | .paritySize => geometryWord s Act.parity
  | .bbmOffset => geometryWord s Act.bbmOffset
  | .chunksNeeded => geometryWord s Act.chunksNeeded
  | .required => geometryWord s Act.required
  | .codec => codecWord s

/-- A host write to ECC_CFG: ECC_KIND and WIDE_BUS are stored, reserved bits dropped (R28). -/
def writeEccCfg (v : Word) (s : State) : State :=
  { s with eccKind := v.extractLsb' 0 4, wideBus := v.getLsbD 8 }

/-- A host write to a register other than CMD: stored (R26-R28), or ignored where the register is read-only (R32). A
write to CMD is a command, not a store (R24): Machine/Bus.lean issues it. -/
def storeReg (r : Reg) (v : Word) (s : State) : State :=
  match r with
  | .pageSize => { s with pageSize := v }
  | .oobSize => { s with oobSize := v }
  | .eccCfg => writeEccCfg v s
  | .inLen => { s with inLen := v }
  | .cmd | .status | .outLen | .dataUnitSize | .oobPerChunk | .bbmSize | .paritySize | .bbmOffset | .chunksNeeded
  | .required | .codec => s

/-- Byte lane k of a register word on a platform bus that splits words: bits 8k+7 to 8k, lane 0 at the lowest platform
address (R69). -/
def byteLane (w : Word) (k : Nat) : Byte := w.extractLsb' (8 * k) 8

/-- The register word of four byte lanes, lowest address first (R69). -/
def wordOfLanes (b0 b1 b2 b3 : Byte) : Word := place 0 b0 ||| place 8 b1 ||| place 16 b2 ||| place 24 b3

end Sys2Proof.Machine
end

