-- ==== Sys2Proof/Machine/Bus.lean ====
section
/-! DEFINITION. The host's accesses (20_memory.md R60-R73, 60_exceptions.md R223, R226): where an access goes, when it is
refused, what it does, and how a CMD write issues a command. -/

namespace Sys2Proof.Machine

/-- A write of w to CMD (R223): the decoded command, or the ILLEGAL entry. -/
def issueCommand (w : Word) (s : State) : Host.Outcome State Fault Refusal :=
  match decode w with
  | .ok i => exec i s
  | .error _ => .next (illegalCommand (opcodeField w) s)

/-- The size of a space in bytes (R60). -/
def Space.bytes (sp : Space) : Nat :=
  match sp with
  | .reg => regBytes
  | .inBuf => inBufBytes
  | .outBuf => outBufBytes

/-- The platform address of a space's offset 0 (R61). -/
def Space.base (sp : Space) : Nat :=
  match sp with
  | .reg => Config.regBase
  | .inBuf => Config.inBase
  | .outBuf => Config.outBase

/-- Is the platform address inside the space's window (R61)? -/
def Space.holds (address : Nat) (sp : Space) : Bool :=
  decide (sp.base ≤ address) && decide (address < sp.base + sp.bytes)

/-- The space and offset of a location. REG_BASE + o is REG offset o, and likewise for IN and OUT (R61). An address of
no window, or of more than one, is refused (log 10). -/
def resolve (loc : Loc) : Except Refusal (Space × Nat) :=
  match loc with
  | .offset sp off => .ok (sp, off)
  | .platform address =>
    match [Space.reg, Space.inBuf, Space.outBuf].filter (Space.holds address) with
    | [] => .error .addressOutsidePF
    | [sp] => .ok (sp, address - sp.base)
    | _ => .error .addressAmbiguous

/-- The register a REG access reaches, or why it is refused (R62, R63). -/
def regTarget (width off : Nat) : Except Fault Reg :=
  if width ≠ 32 then .error .regWidth
  else if off % 4 ≠ 0 then .error .regMisaligned
  else if regBytes ≤ off then .error .regRange
  else
    match regAt off with
    | none => .error .regReserved
    | some r => .ok r

/-- Whether a buffer access is allowed: one byte, inside the space (R64). -/
def bufferTarget (size width off : Nat) : Except Fault Nat :=
  if width ≠ 8 then .error .bufferWidth
  else if size ≤ off then .error .bufferRange
  else .ok off

/-- The host receives `d`; PF's state does not change (R71). -/
def deliver (d : ReadData) (s : State) : State := { s with readData := some d }

/-- A host read of IN[a] (R64): one draw is used if the byte is unspecified, and is accounted for either way. -/
def readInByte (a : Nat) (s : State) : State := deliver (.byte (inByte s a s.freeCount)) (drew 1 s)

/-- A host read of OUT[a] (R64, R39). -/
def readOutByte (a : Nat) (s : State) : State := deliver (.byte (outByte s a s.freeCount)) (drew 1 s)

/-- A host read (R71). -/
def hostRead (sp : Space) (width off : Nat) (s : State) : Host.Outcome State Fault Refusal :=
  match sp with
  | .reg =>
    match regTarget width off with
    | .error f => .fault f
    | .ok r => .next (deliver (.word (readReg r s)) s)
  | .inBuf =>
    match bufferTarget inBufBytes width off with
    | .error f => .fault f
    | .ok a => .next (readInByte a s)
  | .outBuf =>
    match bufferTarget outBufBytes width off with
    | .error f => .fault f
    | .ok a => .next (readOutByte a s)

/-- A host write of a whole register word (R32): CMD always issues a command. -/
def writeReg (r : Reg) (v : Word) (s : State) : Host.Outcome State Fault Refusal :=
  if r = .cmd then issueCommand v s else .next (storeReg r v s)

/-- A host write (R71). A byte written is the low 8 bits of the bus value (log 18); a write to OUT is ignored (R64). -/
def hostWrite (sp : Space) (width off : Nat) (v : Word) (s : State) : Host.Outcome State Fault Refusal :=
  match sp with
  | .reg =>
    match regTarget width off with
    | .error f => .fault f
    | .ok r => writeReg r v s
  | .inBuf =>
    match bufferTarget inBufBytes width off with
    | .error f => .fault f
    | .ok a => .next (writeInByte a (v.setWidth 8) s)
  | .outBuf =>
    match bufferTarget outBufBytes width off with
    | .error f => .fault f
    | .ok _ => .next s

/-- One access of the host, or reset (R70, R72, R250). -/
def hostAccess (x : Access) (s : State) : Host.Outcome State Fault Refusal :=
  match x with
  | .reset => .next (resetPF s)
  | .read loc width =>
    match resolve loc with
    | .error r => .refused r
    | .ok (sp, off) => hostRead sp width off s
  | .write loc width v =>
    match resolve loc with
    | .error r => .refused r
    | .ok (sp, off) => hostWrite sp width off v s

/-- The oldest pending access takes effect (R72). With none pending nothing happens: PF holds its state (R235, R259). -/
def hostTurn (s : State) : Host.Outcome State Fault Refusal :=
  match s.pending with
  | [] => .next s
  | x :: rest => hostAccess x { s with pending := rest }

/-- The host's write of a CMD word: a 32-bit write at REG offset 0 (R90). -/
def cmdWrite (w : Word) : Access := .write (.offset .reg Reg.cmd.offset) 32 w

/-- Make the write of `w` to CMD the next access (log 17). -/
def placeCommand (w : Word) (s : State) : State := { s with pending := cmdWrite w :: s.pending }

end Sys2Proof.Machine
end

