-- ==== Sys2Proof/Machine/Step.lean ====
section
/-! DEFINITION. One step of PF: the oldest pending host access takes effect (20_memory.md R72). -/

namespace Sys2Proof.Machine

/-- One step. -/
def step (s : State) : Host.Outcome State Fault Refusal := hostTurn s

/-- s with a write of the table's word to CMD as the host's next access. -/
def State.withFetchWord (s : State) (nbits w : Nat) : State := placeCommand (tableWord nbits w) s

end Sys2Proof.Machine
end

