-- ==== Sys2Proof/Safety.lean ====
section
/-! DEFINITION. What claims about PF are stated in: a legal configuration, the invariant of a sound state, a safe run,
and tables copied from the spec for statements to compare the model with. -/

namespace Sys2Proof.Machine

/-- An ACT that a CONFIGURE which passes every check latches (42_page.md R181-R183): the fields follow from sizes, kind
and bus width, the sizes are positive and within the capacities, the geometry invariant (41_chunk.md R162) and the OOB
budget (R182) hold. -/
structure Act.Legal (a : Act) : Prop where
  built : a = buildAct a.pageSize a.oobSize a.kind a.wide
  pagePos : 0 < a.pageSize
  oobPos : 0 < a.oobSize
  pageMax : a.pageSize ≤ maxPageSize
  oobMax : a.oobSize ≤ maxOobSize
  geometry : a.bbm + a.parity ≤ a.opc
  budget : a.required ≤ a.pageSize + a.oobSize

/-- The invariant of PF: both buffers canonical and inside their spaces; ACT legal when present; no valid result beside
an error record, without an ACT, or with an undefined result byte; OUT_LEN 0 without a valid result. -/
structure State.Inv (s : State) : Prop where
  inCanonical : Buffer.wf s.inBuf = true
  inWithin : Buffer.within inBufBytes s.inBuf = true
  outCanonical : Buffer.wf s.outBuf = true
  outWithin : Buffer.within outBufBytes s.outBuf = true
  actLegal : ∀ a, s.act = some a → a.Legal
  validConfigured : s.outValid = true → s.act.isSome = true
  validNoError : s.outValid = true → s.err = none
  validDefined : s.outValid = true → ∀ x, x < s.outLen.toNat → (Buffer.byteAt s.outBuf x).isSome = true
  invalidEmpty : s.outValid = false → s.outLen = 0
  outLenFits : s.outLen.toNat ≤ outBufBytes

/-- IN holds the bytes of `data` from offset 0 on, and IN_LEN is their number (10_state.md R27, R38). -/
def InputIs (s : State) (data : Bytes) : Prop :=
  s.inLen.toNat = data.length ∧ ∀ k (hk : k < data.length), Buffer.byteAt s.inBuf k = some data[k]

/-- OUT holds exactly the result `r`, valid, and OUT_LEN is its length (10_state.md R29, R39). -/
def OutputIs (s : State) (r : Bytes) : Prop :=
  s.outValid = true ∧ s.outLen.toNat = r.length ∧ ∀ k, outDefined s k = r[k]?

/-- What no command writes (10_state.md R26-R28, R38): the operand registers and IN; with them the two host-side fields
of the model. -/
def SameOperands (s t : State) : Prop :=
  t.pageSize = s.pageSize ∧ t.oobSize = s.oobSize ∧ t.eccKind = s.eccKind ∧ t.wideBus = s.wideBus ∧
    t.inLen = s.inLen ∧ (∀ x, Buffer.byteAt t.inBuf x = Buffer.byteAt s.inBuf x) ∧
    t.pending = s.pending ∧ t.readData = s.readData

/-- Every byte OUT holds at offset n or above stays. -/
def SameOutFrom (n : Nat) (s t : State) : Prop :=
  ∀ x, n ≤ x → Buffer.byteAt t.outBuf x = Buffer.byteAt s.outBuf x

/-- The access that a step performs: the oldest pending one. -/
def nextAccess (s : State) : Option Access := s.pending.head?

/-- The next access writes `w` to CMD, at a REG offset or through the platform map (R61, R90). -/
def WritesCmd (s : State) (w : Word) : Prop :=
  ∃ loc, nextAccess s = some (.write loc 32 w) ∧ resolve loc = .ok (.reg, 0)

/-- A run of k steps that meets neither a refused access nor a refusal. -/
def SafeRun (k : Nat) (s : State) : Prop := ∃ t, Sys2Proof.core.run k s = .next t

/-- R94, R121, R122, R161: ECC_KIND, kind, codec, du, opc and parity_size. -/
def kindTable : List (BitVec 4 × EccKind × Codec × Nat × Nat × Nat) :=
  [(0, .rs, .reedSolomon, 516, 12, 10), (1, .rsSbl, .reedSolomon, 512, 16, 10),
   (2, .bch4, .bch .four, 516, 12, 7), (3, .bch8, .bch .eight, 516, 16, 13)]

/-- R162's table: kind, wide_bus, bbm_size + parity_size, oob_per_chunk. -/
def geometryTable : List (EccKind × Bool × Nat × Nat) :=
  [(.rs, false, 11, 12), (.rsSbl, false, 11, 16), (.bch4, false, 8, 12), (.bch8, false, 14, 16),
   (.rs, true, 12, 12), (.rsSbl, true, 12, 16), (.bch4, true, 9, 12), (.bch8, true, 15, 16)]

/-- R221's codes, in the order of its table. -/
def errorCodes : List ErrorCode :=
  [.illegalCmd, .cfgZeroSize, .cfgCapacity, .cfgKind, .cfgGeometry, .cfgOobBudget, .notConfigured, .oversizePage,
   .oversizeChunk, .oversizeRs, .oversizeBch, .inRange]

end Sys2Proof.Machine
end

