-- ==== Sys2Proof/Certificates/Slice0/Obligations.lean ====
section
/-! DEFINITION. The statements about PF that the provers settle. Each docstring cites the rules it formalises. -/

open Sys2Proof Sys2Proof.Machine

/-! ### Encodings and dispatch -/

/-- Words written out bit by bit from R91 and R92, and illegal words of R97 (V-CMD-2 to V-CMD-6). -/
def Obligations.SpecWordsDecode : Prop :=
  decode 0b00000000000000000000000000000001 = .ok .configure ∧
  decode 0b00000000000000000000000000000010 = .ok .programPage ∧
  decode 0b00000000000000000000000000000011 = .ok .programChunk ∧
  decode 0b00000000000000000000000000000100 = .ok .encode ∧
  decode 0x00000000 = .error .unassignedOpcode ∧ decode 0x00000005 = .error .unassignedOpcode ∧
  decode 0x0000000F = .error .unassignedOpcode ∧ decode 0x00000011 = .error .reservedBits ∧
  decode 0x80000002 = .error .reservedBits

/-- R91, R92, R97: a word decodes to a command exactly when it is that command's CMD word; every other word is ILLEGAL. -/
def Obligations.DecodeIffEncode : Prop :=
  ∀ (w : Word) (i : Instr), decode w = .ok i ↔ w = encode i

/-- R91: RSVD ≠ 0 is ILLEGAL whatever OPCODE says, and with RSVD = 0 the opcodes 0 and 5 to 15 are ILLEGAL, 1 to 4 not. -/
def Obligations.IllegalWordsAreThoseOfR97 : Prop :=
  ∀ w : Word, (∃ e, decode w = .error e) ↔
    16 ≤ w.toNat ∨ w.toNat = 0 ∨ 5 ≤ w.toNat

/-- R73, R90, R223: a step whose access writes a command's word to CMD runs exactly that command, the access consumed
and nothing else around it. -/
def Obligations.StepRunsDecodedCommand : Prop :=
  ∀ (s : State) (rest : List Access) (w : Word) (i : Instr),
    s.pending = cmdWrite w :: rest → decode w = .ok i → step s = exec i { s with pending := rest }

/-- R223: the dispatch of every CMD write, by offset or through the platform map. In the error state every word but CONFIGURE's is dropped and no state
changes; an ILLEGAL word clears the result and records E_ILLEGAL_CMD with w[3:0], writing nothing else; any other word
runs its command. -/
def Obligations.DispatchOfEveryCmdWrite : Prop :=
  ∀ (s : State) (rest : List Access) (loc : Loc) (w : Word),
    s.pending = .write loc 32 w :: rest → resolve loc = .ok (.reg, 0) →
    step s =
      if s.err ≠ none ∧ decode w ≠ .ok .configure then .next { s with pending := rest }
      else
        match decode w with
        | .ok i => exec i { s with pending := rest }
        | .error _ =>
          .next { s with
            pending := rest, outValid := false, outLen := 0
            err := some { code := .illegalCmd, op := w.extractLsb' 0 4 } }

/-- R235, R259; log 1: with no host access left PF holds its state. The step's answer here is the model's choice. -/
def Obligations.IdleStepHoldsState : Prop := ∀ s : State, s.pending = [] → step s = .next s

/-! ### CONFIGURE -/

/-- R181, R183, R163, R182: a CONFIGURE that passes every check latches the ACT that the tables and formulas give, sets
CONFIGURED and OUT_VALID, clears the error record and OUT_LEN, and changes nothing else. -/
def Obligations.ConfigureLatchesTheGeometry : Prop :=
  ∀ (s : State) (kind : EccKind) (codec : Codec) (du opc parity : Nat),
    (s.eccKind, kind, codec, du, opc, parity) ∈ kindTable →
    0 < s.pageSize.toNat → 0 < s.oobSize.toNat →
    s.pageSize.toNat ≤ maxPageSize → s.oobSize.toNat ≤ maxOobSize →
    (s.pageSize.toNat + du - 1) / du * (du + opc) ≤ s.pageSize.toNat + s.oobSize.toNat →
    exec .configure s = .next { s with
      act := some {
        pageSize := s.pageSize.toNat, oobSize := s.oobSize.toNat, kind := kind, wide := s.wideBus, codec := codec
        du := du, opc := opc, bbm := if s.wideBus then 2 else 1, parity := parity, chunkSize := du + opc
        bbmOffset := s.pageSize.toNat % (du + opc)
        chunksNeeded := (s.pageSize.toNat + du - 1) / du
        required := (s.pageSize.toNat + du - 1) / du * (du + opc) }
      err := none, outValid := true, outLen := 0 }

/-- R181, R182, R224: the error CONFIGURE reports is that of the first failing check, whatever was recorded before; the
budget is checked on unbounded naturals; with no failing check none is recorded. -/
def Obligations.ConfigureErrorOrder : Prop :=
  ∀ s : State, ∃ t, exec .configure s = .next t ∧
    t.err =
      if s.pageSize.toNat = 0 ∨ s.oobSize.toNat = 0 then some { code := .cfgZeroSize, op := 1 }
      else if maxPageSize < s.pageSize.toNat ∨ maxOobSize < s.oobSize.toNat then some { code := .cfgCapacity, op := 1 }
      else if 3 < s.eccKind.toNat then some { code := .cfgKind, op := 1 }
      else
        let du := if s.eccKind = 1 then 512 else 516
        let opc := if s.eccKind = 0 ∨ s.eccKind = 2 then 12 else 16
        if s.pageSize.toNat + s.oobSize.toNat < (s.pageSize.toNat + du - 1) / du * (du + opc) then
          some { code := .cfgOobBudget, op := 1 }
        else none

/-- R184: a failed CONFIGURE leaves CONFIGURED = 0 and ACT empty with its error recorded, and PF returns to a configured
state only through a later CONFIGURE that succeeds. -/
def Obligations.FailedConfigureLeavesNoInstance : Prop :=
  (∀ s t : State, exec .configure s = .next t → t.err ≠ none →
    t.act = none ∧ configured t = false ∧ (∃ c, t.err = some { code := c, op := 1 })) ∧
  (∀ s t : State, s.act = none → step s = .next t → t.act ≠ none → WritesCmd s (encode .configure) ∧ t.err = none)

/-- R181's frame: CONFIGURE changes neither operand register, IN nor OUT, whether it succeeds or fails. -/
def Obligations.ConfigureFrame : Prop :=
  ∀ s t : State, exec .configure s = .next t →
    SameOperands s t ∧ SameOutFrom 0 s t ∧ t.freeCount = s.freeCount ∧ t.outLen = 0

/-- R251: after reset PF is unconfigured; while it is, a data command raises E_NOT_CONFIGURED; the configuration
registers hold the defaults; and a CONFIGURE straight after reset succeeds and builds the default geometry. -/
def Obligations.DefaultGeometryAfterReset : Prop :=
  configured State.reset = false ∧
  (∀ (i : Instr) (s : State), i ≠ .configure → s.act = none → s.err = none →
    ∃ t, exec i s = .next t ∧ t.err = some { code := .notConfigured, op := opcodeOf i } ∧ t.act = none) ∧
  (State.reset.pageSize = 2048 ∧ State.reset.oobSize = 64 ∧ kindOf State.reset.eccKind = some .bch4 ∧
    State.reset.wideBus = false) ∧
  ∃ t, exec .configure State.reset = .next t ∧ t.err = none ∧
    t.act = some {
      pageSize := 2048, oobSize := 64, kind := .bch4, wide := false, codec := .bch .four
      du := 516, opc := 12, bbm := 1, parity := 7, chunkSize := 528, bbmOffset := 464, chunksNeeded := 4
      required := 2112 }

/-- R162: an ACT that breaks the geometry invariant fails its check with E_CFG_GEOMETRY, but the table meets the
invariant in all eight combinations, so no command ever records that error. -/
def Obligations.GeometryErrorIsUnreachable : Prop :=
  (∀ a : Act, a.opc < a.bbm + a.parity → checkAct a = .error .cfgGeometry) ∧
  (∀ (kind : EccKind) (wide : Bool), ∃ used opc, (kind, wide, used, opc) ∈ geometryTable ∧
    bbmSize wide + kind.codec.paritySize = used ∧ kind.oobPerChunk = opc ∧ used ≤ opc) ∧
  ∀ (i : Instr) (s t : State) (op : BitVec 4), s.err = none → exec i s = .next t →
    t.err ≠ some { code := .cfgGeometry, op := op }

/-- R122: the parity sizes, and that every successful encode returns exactly that many bytes. -/
def Obligations.ParitySizes : Prop :=
  (Codec.bch .four).paritySize = 7 ∧ (Codec.bch .eight).paritySize = 13 ∧ Codec.reedSolomon.paritySize = 10 ∧
  (∀ t, (Codec.bch t).paritySize = (13 * t.t + 7) / 8) ∧
  ∀ (c : Codec) (data p : Bytes), codecEncode c data = .ok p → p.length = c.paritySize

/-- R125, R143, R132: encode is the encoder of the codec's own variant, RS_ENCODE for ReedSolomon and BCH_ENCODE(t) within
BCH_MAX_DATA_BYTES(t) for Bch(t), and each variant's error beyond its limit. -/
def Obligations.CodecEncodeIsItsVariant : Prop :=
  (∀ data : Bytes, codecEncode .reedSolomon data = rsEncode data ∧
    (1015 < data.length → codecEncode .reedSolomon data = .error .oversizeRs)) ∧
  (∀ (t : Strength) (data : Bytes), codecEncode (.bch t) data = bchEncodeOp t data ∧
    codecEncode (.bch t) data =
      if bchMaxDataBytes t < data.length then .error .oversizeBch else .ok (bchEncode t data)) ∧
  (Codec.bch .four).paritySize = 7 ∧ (Codec.bch .eight).paritySize = 13 ∧ Codec.reedSolomon.paritySize = 10

/-! ### The data commands -/

/-- R150, R169, R189, R258: with a legal ACT, no error recorded and IN_LEN within the limits, each data command
completes, on IN bytes never written too (they are free values; log 3). The bytes it consumes agree with every byte the
host wrote; its next state is the state with the result stored at OUT offset 0, OUT_LEN, OUT_VALID and the draws. -/
def Obligations.DataCommandsComplete : Prop :=
  ∀ (s : State) (a : Act), s.err = none → s.act = some a → a.Legal → s.inLen.toNat ≤ inBufBytes →
    ∃ data : Bytes, data.length = s.inLen.toNat ∧
      (∀ k b, k < s.inLen.toNat → Buffer.byteAt s.inBuf k = some b → data[k]? = some b) ∧
      (s.inLen.toNat ≤ a.pageSize → ∃ r, pageProgram a data = .ok r ∧
        exec .programPage s = .next { s with
          outBuf := Buffer.store s.outBuf 0 r, outLen := BitVec.ofNat 32 (a.pageSize + a.oobSize), outValid := true
          freeCount := s.freeCount + s.inLen.toNat }) ∧
      (s.inLen.toNat ≤ a.du → ∃ r, chunkProgram a data = .ok r ∧
        exec .programChunk s = .next { s with
          outBuf := Buffer.store s.outBuf 0 r, outLen := BitVec.ofNat 32 (a.du + a.opc), outValid := true
          freeCount := s.freeCount + s.inLen.toNat }) ∧
      (s.inLen.toNat ≤ a.codec.maxInput → ∃ r, codecEncode a.codec data = .ok r ∧
        exec .encode s = .next { s with
          outBuf := Buffer.store s.outBuf 0 r, outLen := BitVec.ofNat 32 a.codec.paritySize, outValid := true
          freeCount := s.freeCount + s.inLen.toNat })

/-- R150, R125: ENCODE of written bytes leaves in OUT the parity of the active codec's own encoder, RS_ENCODE or
BCH_ENCODE(t), parity_size bytes, with no padding of the input and no error. -/
def Obligations.EncodeResult : Prop :=
  ∀ (s : State) (a : Act) (data : Bytes), s.err = none → s.act = some a → a.Legal → InputIs s data →
    data.length ≤ inBufBytes → data.length ≤ a.codec.maxInput →
    ∃ r t, codecEncode a.codec data = .ok r ∧
      (a.codec = .reedSolomon → rsEncode data = .ok r) ∧ (∀ b, a.codec = .bch b → r = bchEncode b data) ∧
      exec .encode s = .next t ∧ OutputIs t r ∧ r.length = a.parity ∧ t.err = none

/-- R169: PROGRAM_CHUNK of written bytes leaves their chunk in OUT, chunk_size bytes, with no error. -/
def Obligations.ProgramChunkResult : Prop :=
  ∀ (s : State) (a : Act) (u : Bytes), s.err = none → s.act = some a → a.Legal → InputIs s u →
    u.length ≤ a.du →
    ∃ c t, chunkProgram a u = .ok c ∧ exec .programChunk s = .next t ∧ OutputIs t c ∧
      c.length = a.chunkSize ∧ t.err = none

/-- R188, R189: PROGRAM_PAGE of written bytes leaves their page image in OUT, exactly page_size + oob_size bytes, which
fit in OUT, with no error. -/
def Obligations.ProgramPageResult : Prop :=
  ∀ (s : State) (a : Act) (x : Bytes), s.err = none → s.act = some a → a.Legal → InputIs s x →
    x.length ≤ a.pageSize →
    ∃ r t, pageProgram a x = .ok r ∧ exec .programPage s = .next t ∧ OutputIs t r ∧
      r.length = a.pageSize + a.oobSize ∧ r.length ≤ outBufBytes ∧ t.err = none

/-- R100, R165, R166, R168: the byte positions of a chunk. d is the data unit padded with 0xFF, the parity covers d, and
e = min(bbm_offset, du). -/
def Obligations.ChunkBytePositions : Prop :=
  ∀ (a : Act) (u chunk : Bytes), a.Legal → chunkProgram a u = .ok chunk →
    ∃ p, codecEncode a.codec (u ++ rep (a.du - u.length) 0xFF) = .ok p ∧
      chunk.length = a.chunkSize ∧ a.chunkSize = a.du + a.opc ∧
      ∀ j, j < a.du + a.opc →
        let d := u ++ rep (a.du - u.length) 0xFF
        let e := min a.bbmOffset a.du
        chunk[j]? =
          if j < e then d[j]?
          else if j < e + a.bbm then some 0xFF
          else if j < a.du + a.bbm then d[j - a.bbm]?
          else if j < a.du + a.bbm + a.parity then p[j - (a.du + a.bbm)]?
          else some 0xFF

/-- R102, R185, R187: the byte positions of a page image. Chunk k occupies [k·chunk_size, (k+1)·chunk_size) and is the
chunk of the page bytes [k·du, min((k+1)·du, page_size)), the page being padded with 0x00; the rest is 0xFF filler. -/
def Obligations.PageBytePositions : Prop :=
  ∀ (a : Act) (x r : Bytes), a.Legal → pageProgram a x = .ok r →
    r.length = a.pageSize + a.oobSize ∧
    (∀ k, k < a.chunksNeeded →
      chunkProgram a (slice (x ++ rep (a.pageSize - x.length) 0x00) (k * a.du) (min ((k + 1) * a.du) a.pageSize)) =
        .ok (slice r (k * a.chunkSize) ((k + 1) * a.chunkSize))) ∧
    ∀ j, a.required ≤ j → j < a.pageSize + a.oobSize → r[j]? = some 0xFF

/-- R186: the slices are ceil_div(page_size, du) in number, all but the last du bytes long, the last between 1 and du
bytes, and together they are the padded page; the chunk assembler pads a short last slice with 0xFF. -/
def Obligations.SlicesPartitionThePage : Prop :=
  ∀ (a : Act) (y : Bytes), a.Legal → y.length = a.pageSize →
    a.chunksNeeded = (a.pageSize + a.du - 1) / a.du ∧
    (List.range a.chunksNeeded).flatMap (pageSlice a y) = y ∧
    (∀ k, k + 1 < a.chunksNeeded → pageSlice a y k = slice y (k * a.du) ((k + 1) * a.du) ∧
      (pageSlice a y k).length = a.du) ∧
    (pageSlice a y (a.chunksNeeded - 1)).length = a.pageSize - (a.chunksNeeded - 1) * a.du ∧
    1 ≤ (pageSlice a y (a.chunksNeeded - 1)).length ∧ (pageSlice a y (a.chunksNeeded - 1)).length ≤ a.du ∧
    chunkProgram a (pageSlice a y (a.chunksNeeded - 1)) =
      chunkProgram a (pageSlice a y (a.chunksNeeded - 1) ++
        rep (a.du - (pageSlice a y (a.chunksNeeded - 1)).length) 0xFF)

/-- R194: inside PROGRAM_PAGE no inner error occurs. Every slice has at most du bytes, every codec input is exactly du ≤
516 bytes, within every codec's limit, and is accepted, so PAGE_PROGRAM answers on every input of at most page_size
bytes. -/
def Obligations.InnerErrorsAreUnreachable : Prop :=
  ∀ (a : Act) (x : Bytes), a.Legal → x.length ≤ a.pageSize →
    (∀ k, (pageSlice a (paddedPage a x) k).length ≤ a.du ∧
      (paddedUnit a (pageSlice a (paddedPage a x) k)).length = a.du) ∧
    a.du ≤ 516 ∧ Codec.reedSolomon.maxInput = 1015 ∧ (∀ t, 516 ≤ (Codec.bch t).maxInput) ∧
    (∀ d : Bytes, d.length = a.du → ∃ p, codecEncode a.codec d = .ok p) ∧
    ∃ r, pageProgram a x = .ok r

/-- R224, R66: the error a data command reports from an error-free state is that of its first failing check, and it
reports none when no check fails. -/
def Obligations.DataCommandErrorOrder : Prop :=
  ∀ s : State, s.err = none → (∀ a, s.act = some a → a.Legal) →
    (∃ t, exec .programPage s = .next t ∧ t.err =
      match s.act with
      | none => some { code := .notConfigured, op := 2 }
      | some a => if a.pageSize < s.inLen.toNat then some { code := .oversizePage, op := 2 } else none) ∧
    (∃ t, exec .programChunk s = .next t ∧ t.err =
      match s.act with
      | none => some { code := .notConfigured, op := 3 }
      | some a => if a.du < s.inLen.toNat then some { code := .oversizeChunk, op := 3 } else none) ∧
    (∃ t, exec .encode s = .next t ∧ t.err =
      match s.act with
      | none => some { code := .notConfigured, op := 4 }
      | some a =>
        match a.codec with
        | .reedSolomon => if 1015 < s.inLen.toNat then some { code := .oversizeRs, op := 4 } else none
        | .bch t =>
          if bchMaxDataBytes t < s.inLen.toNat then some { code := .oversizeBch, op := 4 }
          else if inBufBytes < s.inLen.toNat then some { code := .inRange, op := 4 } else none)

/-- R222, R65: a command that raises an error leaves no partial result: the result is cleared, OUT and IN are not
written, ACT stays (CONFIGURE: is gone), and the record names the command. -/
def Obligations.ErrorsLeaveNoPartialResult : Prop :=
  ∀ (i : Instr) (s t : State), s.err = none → exec i s = .next t → t.err ≠ none →
    (∃ c, t.err = some { code := c, op := (encode i).extractLsb' 0 4 }) ∧ t.outValid = false ∧ t.outLen = 0 ∧
    SameOutFrom 0 s t ∧ SameOperands s t ∧ t.act = if i = .configure then none else s.act

/-- The frame of PROGRAM_PAGE, PROGRAM_CHUNK and ENCODE (R27, R37, R38, R65, R222, R223): operand registers, ACT and IN
stay; in the error state nothing changes; an error writes no OUT byte; a result writes OUT[0..OUT_LEN) and no other. -/
def Obligations.DataCommandFrame : Prop :=
  ∀ (i : Instr) (s t : State), i ≠ .configure → (∀ a, s.act = some a → a.Legal) → exec i s = .next t →
    SameOperands s t ∧ t.act = s.act ∧
    (s.err ≠ none → t = s) ∧
    (t.outValid = false → SameOutFrom 0 s t) ∧
    (s.err = none → SameOutFrom t.outLen.toNat s t)

/-- R66: E_IN_RANGE is never raised by PROGRAM_PAGE, PROGRAM_CHUNK or a Reed-Solomon ENCODE. -/
def Obligations.InRangeOnlyFromBchEncode : Prop :=
  ∀ (i : Instr) (s t : State) (op : BitVec 4), s.err = none → (∀ a, s.act = some a → a.Legal) →
    (i = .encode → ∀ a, s.act = some a → a.codec = .reedSolomon) → exec i s = .next t →
    t.err ≠ some { code := .inRange, op := op }

/-- R253, R183, R33: a data command does not see PAGE_SIZE, OOB_SIZE or ECC_CFG: whatever they hold, it does the same to
the rest of the state. The result bytes are compared only where no byte consumed is unspecified (U1: a run may read any
value there; log 3): where every byte of IN[0..IN_LEN) was written, or where the command leaves no result. -/
def Obligations.DataCommandsIgnoreConfigRegisters : Prop :=
  ∀ (i : Instr) (s t : State) (p o : Word) (k : BitVec 4) (w : Bool), i ≠ .configure → exec i s = .next t →
    ∃ u, exec i { s with pageSize := p, oobSize := o, eccKind := k, wideBus := w } = .next u ∧
      u = { t with pageSize := p, oobSize := o, eccKind := k, wideBus := w, outBuf := u.outBuf } ∧
      ((∀ x, x < s.inLen.toNat → (Buffer.byteAt s.inBuf x).isSome = true) ∨ t.outValid = false →
        u.outBuf = t.outBuf)

/-- R191, R167, R123, R189: a data command's visible outcome depends only on ACT and IN[0..IN_LEN): two states that
agree on them, whatever else they hold (OUT, IN beyond IN_LEN, configuration registers, earlier results), end with the
same STATUS, OUT_LEN and defined OUT bytes. -/
def Obligations.EqualInputsGiveEqualResults : Prop :=
  ∀ (i : Instr) (s₁ s₂ t₁ t₂ : State) (a : Act) (x : Bytes), i ≠ .configure → a.Legal →
    s₁.act = some a → s₂.act = some a → s₁.err = none → s₂.err = none → InputIs s₁ x → InputIs s₂ x →
    exec i s₁ = .next t₁ → exec i s₂ = .next t₂ →
    readReg .status t₁ = readReg .status t₂ ∧ t₁.outLen = t₂.outLen ∧ ∀ k, outDefined t₁ k = outDefined t₂ k

/-- R190, R185: page-level padding is 0x00, so an input extended by zero bytes up to page_size gives the same page; and
chunk-level padding is 0xFF (R165), so a data unit extended by 0xFF bytes up to du gives the same chunk. -/
def Obligations.PaddingBytesOfPageAndChunk : Prop :=
  ∀ (a : Act) (x : Bytes) (n : Nat),
    (x.length + n ≤ a.pageSize → pageProgram a (x ++ rep n 0x00) = pageProgram a x) ∧
    (x.length + n ≤ a.du → chunkProgram a (x ++ rep n 0xFF) = chunkProgram a x)

/-! ### Reed-Solomon -/

/-- R126: gfmul is a commutative, associative multiplication with identity 1 that distributes over ⊕, every nonzero
element has an inverse, and multiplying by x shifts and reduces by 0x409, which with the other laws fixes the product. -/
def Obligations.GfmulIsAFieldMultiplication : Prop :=
  (∀ a b c : Sym, gfmul a b = gfmul b a ∧ gfmul (gfmul a b) c = gfmul a (gfmul b c) ∧
    gfmul a (b ^^^ c) = gfmul a b ^^^ gfmul a c ∧ gfmul a 1 = a) ∧
  (∀ a : Sym, a ≠ 0 → ∃ b, gfmul a b = 1) ∧
  ∀ a : Sym, gfmul a 0x002 = a <<< 1 ^^^ if a.getLsbD 9 then 0x009 else 0

/-- R126, R127 (V-GF-8): α = 0x002 has multiplicative order 1023. -/
def Obligations.AlphaIsPrimitive : Prop :=
  alphaPow 1023 = 1 ∧ ∀ n, 0 < n → n < 1023 → alphaPow n ≠ 1

/-- R128: the encoder's g(x) is the product of (x ⊕ α^i), i = 1 to 8, with R128's coefficients, and vanishes at each
root. -/
def Obligations.GeneratorHasItsRoots : Prop :=
  generator = rootProduct 8 ∧
  generator = [0x001, 0x1FE, 0x033, 0x143, 0x297, 0x3A0, 0x03A, 0x24B, 0x344] ∧
  ∀ i, 1 ≤ i → i ≤ 8 → polyEval generator (alphaPow i) = 0

/-- R131, with the bit positions of R103: where each bit of the parity symbols lies in the ten parity bytes. -/
def Obligations.PackedBitPositions : Prop :=
  ∀ p0 p1 p2 p3 p4 p5 p6 p7 : Sym,
    pack10 [p0, p1, p2, p3, p4, p5, p6, p7] =
      [p0.extractLsb' 2 8, p0.extractLsb' 0 2 ++ p1.extractLsb' 4 6, p1.extractLsb' 0 4 ++ p2.extractLsb' 6 4,
       p2.extractLsb' 0 6 ++ p3.extractLsb' 8 2, p3.extractLsb' 0 8,
       p4.extractLsb' 2 8, p4.extractLsb' 0 2 ++ p5.extractLsb' 4 6, p5.extractLsb' 0 4 ++ p6.extractLsb' 6 4,
       p6.extractLsb' 0 6 ++ p7.extractLsb' 8 2, p7.extractLsb' 0 8]

/-- R129, R132: the codeword of every accepted input, its 1015 message symbols followed by the 8 parity symbols, has the
roots α^1 to α^8, and RS_ENCODE packs those parity symbols. -/
def Obligations.CodewordHasTheRoots : Prop :=
  ∀ data : Bytes, data.length ≤ 1015 →
    ∃ parity : List Sym, parity.length = 8 ∧ rsEncode data = .ok (pack10 parity) ∧
      ∀ i, 1 ≤ i → i ≤ 8 →
        polyEval (toSymbols (rep (1015 - data.length) 0x00 ++ data) ++ parity) (alphaPow i) = 0

/-- R133 (a) and (b): RS_ENCODE is linear over ⊕ on inputs of equal length, bytewise, and maps zeros to zeros. -/
def Obligations.RsEncodeIsLinear : Prop :=
  (∀ a b : Bytes, a.length = b.length → a.length ≤ 1015 →
    ∃ ra rb, rsEncode a = .ok ra ∧ rsEncode b = .ok rb ∧
      rsEncode (List.zipWith (· ^^^ ·) a b) = .ok (List.zipWith (· ^^^ ·) ra rb)) ∧
  ∀ n, n ≤ 1015 → rsEncode (rep n 0x00) = .ok (rep 10 0x00)

/-- R133 (c): the parity symbols of the constant word of 1015 bytes c are eight times c, and for 0xFF they pack to 3F CF
F3 FC FF 3F CF F3 FC FF. -/
def Obligations.ConstantWordParity : Prop :=
  (∀ c : Byte, rsEncode (rep 1015 c) = .ok (pack10 (List.replicate 8 (c.setWidth 10)))) ∧
  rsEncode (rep 1015 0xFF) = .ok [0x3F, 0xCF, 0xF3, 0xFC, 0xFF, 0x3F, 0xCF, 0xF3, 0xFC, 0xFF]

/-! ### The whole machine -/

/-- The invariant of Safety.lean holds after reset (R40). -/
def Obligations.ResetMeetsTheInvariant : Prop := State.reset.Inv

/-- Every step keeps the invariant: canonical buffers inside their spaces, a legal ACT, and a result that is valid only
with an ACT, no error and every byte defined (R25, R29, R34, R37, R39, R65, R188). -/
def Obligations.StepKeepsTheInvariant : Prop := ∀ s t : State, s.Inv → step s = .next t → t.Inv

/-- R225: a recorded error stays, unchanged, until a CONFIGURE or reset; reset ends it; CONFIGURE clears the record at
its start, doing what it does with none recorded, and then either succeeds, leaving an ACT, or records its own error;
every other command is dropped. -/
def Obligations.ErrorStateEndsByConfigureOrReset : Prop :=
  (∀ (s t : State) (e : ErrorRecord), s.err = some e → step s = .next t →
    t.err = some e ∨ nextAccess s = some .reset ∨ WritesCmd s (encode .configure)) ∧
  (∀ s t : State, nextAccess s = some .reset → step s = .next t → t.err = none) ∧
  (∀ s : State, ∃ t, exec .configure s = .next t ∧ exec .configure { s with err := none } = .next t ∧
    (t.err = none ∧ t.act.isSome = true ∨ ∃ c, t.err = some { code := c, op := 1 })) ∧
  ∀ (i : Instr) (s : State), i ≠ .configure → s.err ≠ none → exec i s = .next s

/-- R38: a byte of IN changes only by the host's write of that byte, to the byte written, or by reset. -/
def Obligations.InChangesOnlyByHostWrites : Prop :=
  ∀ (s t : State) (x : Nat), step s = .next t → Buffer.byteAt t.inBuf x ≠ Buffer.byteAt s.inBuf x →
    nextAccess s = some .reset ∨
    ∃ loc v, nextAccess s = some (.write loc 8 v) ∧ resolve loc = .ok (.inBuf, x) ∧
      Buffer.byteAt t.inBuf x = some (v.extractLsb' 0 8)

/-- R37, R39, R71: OUT, OUT_VALID, OUT_LEN, the error record and ACT change only by a CMD write or reset; ACT only by
CONFIGURE or reset (R33). -/
def Obligations.ResultsChangeOnlyByCommands : Prop :=
  ∀ s t : State, step s = .next t →
    ((∃ w, WritesCmd s w) ∨ nextAccess s = some .reset ∨
      (t.outBuf = s.outBuf ∧ t.outValid = s.outValid ∧ t.outLen = s.outLen ∧ t.err = s.err)) ∧
    (WritesCmd s (encode .configure) ∨ nextAccess s = some .reset ∨ t.act = s.act)

/-- R71: a read has no side effect: only the data returned and the model's count of draws change. -/
def Obligations.ReadsChangeNoState : Prop :=
  ∀ (s t : State) (loc : Loc) (width : Nat) (rest : List Access),
    s.pending = .read loc width :: rest → step s = .next t →
    t = { s with pending := rest, readData := t.readData, freeCount := t.freeCount } ∧ t.readData ≠ none

/-- R250, R40: reset sets every piece of PF's state to its reset value, from any state; what stays is the host's side of
the model (log 1, log 2, log 3, log 13), which is no state of PF. -/
def Obligations.ResetSetsEveryPiece : Prop :=
  ∀ (s : State) (rest : List Access), s.pending = .reset :: rest →
    step s = .next { State.reset with pending := rest, readData := s.readData, freeCount := s.freeCount }

/-! ### Registers and buffers -/

/-- R40: what each register reads at reset; no byte of IN or OUT is defined. -/
def Obligations.ResetRegisterReads : Prop :=
  (Reg.all.map fun r => (r.offset, readReg r State.reset)) =
    [(0x00, 0), (0x04, 0), (0x08, 2048), (0x0C, 64), (0x10, 2), (0x14, 0), (0x18, 0), (0x1C, 0), (0x20, 0), (0x24, 0),
     (0x28, 0), (0x2C, 0), (0x30, 0), (0x34, 0), (0x38, 0)] ∧
  ∀ x, Buffer.byteAt State.reset.inBuf x = none ∧ outDefined State.reset x = none

/-- R23, R24, R62: an aligned 32-bit read at each defined offset delivers that register, and CMD reads 0. -/
def Obligations.RegisterReadsFollowTheMap : Prop :=
  ∀ (s : State) (rest : List Access) (off : Nat) (v : Word),
    (off, v) ∈ [(0x00, 0), (0x04, statusWord s), (0x08, s.pageSize), (0x0C, s.oobSize), (0x10, eccCfgWord s),
      (0x14, s.inLen), (0x18, s.outLen), (0x1C, geometryWord s Act.du), (0x20, geometryWord s Act.opc),
      (0x24, geometryWord s Act.bbm), (0x28, geometryWord s Act.parity), (0x2C, geometryWord s Act.bbmOffset),
      (0x30, geometryWord s Act.chunksNeeded), (0x34, geometryWord s Act.required), (0x38, codecWord s)] →
    s.pending = .read (.offset .reg off) 32 :: rest →
    step s = .next { s with pending := rest, readData := some (.word v) }

/-- R26, R27, R28, R32, R71: a write to PAGE_SIZE, OOB_SIZE or IN_LEN is read back whole, a write to ECC_CFG without its
reserved bits, a write to a read-only register is ignored; no other register, no buffer, no ACT and no error record
changes. -/
def Obligations.RegisterWritesStoreOrAreIgnored : Prop :=
  ∀ (s : State) (rest : List Access) (r : Reg) (v : Word), r ≠ .cmd →
    s.pending = .write (.offset .reg r.offset) 32 v :: rest →
    ∃ t, step s = .next t ∧
      readReg r t =
        (if r = .pageSize ∨ r = .oobSize ∨ r = .inLen then v
         else if r = .eccCfg then v &&& 0x0000010F else readReg r s) ∧
      (∀ r', r' ≠ r → readReg r' t = readReg r' s) ∧
      t.inBuf = s.inBuf ∧ t.outBuf = s.outBuf ∧ t.act = s.act ∧ t.err = s.err ∧ t.pending = rest ∧
      t.readData = s.readData ∧ t.freeCount = s.freeCount

/-- R62, R63, R226: a REG access that is not 32 bits wide, is misaligned, or is at a reserved offset 0x3C to 0xFC has no
next state: the host is stuck. So is one beyond REG's 256 bytes (R60). -/
def Obligations.RefusedRegisterAccesses : Prop :=
  ∀ (s : State) (rest : List Access) (x : Access) (width off : Nat),
    s.pending = x :: rest →
    (x = .read (.offset .reg off) width ∨ ∃ v, x = .write (.offset .reg off) width v) →
    (width ≠ 32 → step s = .fault .regWidth) ∧
    (width = 32 → off % 4 ≠ 0 → step s = .fault .regMisaligned) ∧
    (width = 32 → off % 4 = 0 → 0x3C ≤ off → off ≤ 0xFC → step s = .fault .regReserved) ∧
    (width = 32 → off % 4 = 0 → 0x100 ≤ off → step s = .fault .regRange)

/-- R64: IN and OUT accesses are one byte; an access of another width or at or beyond the space's size is refused; a
write to OUT is ignored; a write to IN stores the byte and nothing else; a read of IN returns the byte last written or a
free value; a read of OUT returns the defined value of R39 or a free value. -/
def Obligations.BufferAccessRules : Prop :=
  ∀ (s : State) (rest : List Access) (a width : Nat) (v : Word),
    (∀ sp, sp ≠ .reg → ∀ x, (x = .read (.offset sp a) width ∨ x = .write (.offset sp a) width v) →
      s.pending = x :: rest →
      (width ≠ 8 → step s = .fault .bufferWidth) ∧ (width = 8 → sp.bytes ≤ a → step s = .fault .bufferRange)) ∧
    (a < outBufBytes → s.pending = .write (.offset .outBuf a) 8 v :: rest → step s = .next { s with pending := rest }) ∧
    (a < inBufBytes → s.pending = .write (.offset .inBuf a) 8 v :: rest →
      ∃ m, step s = .next { s with pending := rest, inBuf := m } ∧
        ∀ x, Buffer.byteAt m x = if x = a then some (v.extractLsb' 0 8) else Buffer.byteAt s.inBuf x) ∧
    (a < inBufBytes → s.pending = .read (.offset .inBuf a) 8 :: rest →
      step s = .next { s with
        pending := rest, freeCount := s.freeCount + 1
        readData := some (.byte ((Buffer.byteAt s.inBuf a).getD (Config.freeByte s.freeCount))) }) ∧
    (a < outBufBytes → s.pending = .read (.offset .outBuf a) 8 :: rest →
      step s = .next { s with
        pending := rest, freeCount := s.freeCount + 1
        readData := some (.byte ((outDefined s a).getD (Config.freeByte s.freeCount))) })

/-- R25, R221: the fields of STATUS; reserved bits read 0, ERR is ERR_CODE ≠ 0, and the error codes are 1 to 12. -/
def Obligations.StatusFields : Prop :=
  errorCodes.map ErrorCode.number = [1, 2, 3, 4, 5, 6, 7, 8, 9, 10, 11, 12] ∧
  ∀ s : State,
    (readReg .status s).getLsbD 0 = s.act.isSome ∧ (readReg .status s).getLsbD 1 = s.outValid ∧
    (readReg .status s).getLsbD 2 = ((readReg .status s).extractLsb' 8 8 != 0) ∧
    (readReg .status s).getLsbD 2 = s.err.isSome ∧
    (readReg .status s).extractLsb' 3 5 = 0 ∧ (readReg .status s).extractLsb' 20 12 = 0 ∧
    (∀ e, s.err = some e → (readReg .status s).extractLsb' 8 8 = e.code.number ∧
      (readReg .status s).extractLsb' 16 4 = e.op) ∧
    (s.err = none → (readReg .status s).extractLsb' 8 8 = 0 ∧ (readReg .status s).extractLsb' 16 4 = 0)

/-- R31: the fields of CODEC. -/
def Obligations.CodecFields : Prop :=
  ∀ s : State,
    (s.act = none → readReg .codec s = 0) ∧
    (∀ a, s.act = some a → a.codec = .reedSolomon → readReg .codec s = 0x00000002) ∧
    (∀ a, s.act = some a → a.codec = .bch .four → readReg .codec s = 0x00000401) ∧
    (∀ a, s.act = some a → a.codec = .bch .eight → readReg .codec s = 0x00000801)

/-- R30: with CONFIGURED = 1 each geometry register reads its ACT field, which fits in 32 bits; with CONFIGURED = 0 it
reads 0. -/
def Obligations.GeometryRegistersShowAct : Prop :=
  ∀ (s : State) (r : Reg) (field : Act → Nat),
    (r, field) ∈ [(Reg.dataUnitSize, Act.du), (.oobPerChunk, Act.opc), (.bbmSize, Act.bbm), (.paritySize, Act.parity),
      (.bbmOffset, Act.bbmOffset), (.chunksNeeded, Act.chunksNeeded), (.required, Act.required)] →
    (s.act = none → readReg r s = 0) ∧
    (∀ a, s.act = some a → a.Legal → (readReg r s).toNat = field a)

/-- R29: OUT_LEN after a command. A command that completes from an error-free state sets it to its result's length, 0
for CONFIGURE; one that raises an error sets it to 0. -/
def Obligations.OutLenFollowsTheCommand : Prop :=
  ∀ (i : Instr) (s t : State), (∀ a, s.act = some a → a.Legal) → s.err = none → exec i s = .next t →
    (t.err ≠ none → t.outLen = 0) ∧
    (t.err = none → ∃ a, t.act = some a ∧ t.outLen.toNat =
      match i with
      | .configure => 0
      | .programPage => a.pageSize + a.oobSize
      | .programChunk => a.du + a.opc
      | .encode => a.parity)

/-- R39: in a sound state every byte of OUT[0..OUT_LEN) is defined while OUT_VALID = 1, and no other byte is. -/
def Obligations.ValidResultIsDefined : Prop :=
  ∀ (s : State) (x : Nat), s.Inv →
    ((outDefined s x).isSome = true ↔ s.outValid = true ∧ x < s.outLen.toNat)

/-- R61: a platform address inside a space's window reaches that space's offset, unless the platform has put another
window over it (log 10: the model then refuses, which is the model's choice). -/
def Obligations.PlatformAddressesReachTheirSpace : Prop :=
  ∀ (sp : Space) (off : Nat), off < sp.bytes →
    resolve (.platform (sp.base + off)) = .ok (sp, off) ∨
    (resolve (.platform (sp.base + off)) = .error .addressAmbiguous ∧
      ∃ sp', sp' ≠ sp ∧ sp'.base ≤ sp.base + off ∧ sp.base + off < sp'.base + sp'.bytes)

/-- R69: register bit 8k+i is bit i of byte lane k, and the lanes in order make up the word. -/
def Obligations.RegisterByteLanes : Prop :=
  ∀ w : Word, wordOfLanes (byteLane w 0) (byteLane w 1) (byteLane w 2) (byteLane w 3) = w ∧
    ∀ k i, k < 4 → i < 8 → (byteLane w k).getLsbD i = w.getLsbD (8 * k + i)
end

