-- ==== Sys2Proof/Laws/State.lean ====
section
/-! SUPPORT. One lemma per field of State per update, each true by rfl, so that no proof unfolds a record update. -/

namespace Sys2Proof.Machine

/-! ### drew -/

@[simp] theorem drew_pageSize (n : Nat) (s : State) : (drew n s).pageSize = s.pageSize := rfl
@[simp] theorem drew_oobSize (n : Nat) (s : State) : (drew n s).oobSize = s.oobSize := rfl
@[simp] theorem drew_eccKind (n : Nat) (s : State) : (drew n s).eccKind = s.eccKind := rfl
@[simp] theorem drew_wideBus (n : Nat) (s : State) : (drew n s).wideBus = s.wideBus := rfl
@[simp] theorem drew_inLen (n : Nat) (s : State) : (drew n s).inLen = s.inLen := rfl
@[simp] theorem drew_outLen (n : Nat) (s : State) : (drew n s).outLen = s.outLen := rfl
@[simp] theorem drew_outValid (n : Nat) (s : State) : (drew n s).outValid = s.outValid := rfl
@[simp] theorem drew_err (n : Nat) (s : State) : (drew n s).err = s.err := rfl
@[simp] theorem drew_act (n : Nat) (s : State) : (drew n s).act = s.act := rfl
@[simp] theorem drew_inBuf (n : Nat) (s : State) : (drew n s).inBuf = s.inBuf := rfl
@[simp] theorem drew_outBuf (n : Nat) (s : State) : (drew n s).outBuf = s.outBuf := rfl
@[simp] theorem drew_pending (n : Nat) (s : State) : (drew n s).pending = s.pending := rfl
@[simp] theorem drew_readData (n : Nat) (s : State) : (drew n s).readData = s.readData := rfl
@[simp] theorem drew_freeCount (n : Nat) (s : State) : (drew n s).freeCount = s.freeCount + n := rfl

/-! ### writeInByte -/

@[simp] theorem writeInByte_pageSize (a : Nat) (b : Byte) (s : State) : (writeInByte a b s).pageSize = s.pageSize := rfl
@[simp] theorem writeInByte_oobSize (a : Nat) (b : Byte) (s : State) : (writeInByte a b s).oobSize = s.oobSize := rfl
@[simp] theorem writeInByte_eccKind (a : Nat) (b : Byte) (s : State) : (writeInByte a b s).eccKind = s.eccKind := rfl
@[simp] theorem writeInByte_wideBus (a : Nat) (b : Byte) (s : State) : (writeInByte a b s).wideBus = s.wideBus := rfl
@[simp] theorem writeInByte_inLen (a : Nat) (b : Byte) (s : State) : (writeInByte a b s).inLen = s.inLen := rfl
@[simp] theorem writeInByte_outLen (a : Nat) (b : Byte) (s : State) : (writeInByte a b s).outLen = s.outLen := rfl
@[simp] theorem writeInByte_outValid (a : Nat) (b : Byte) (s : State) : (writeInByte a b s).outValid = s.outValid := rfl
@[simp] theorem writeInByte_err (a : Nat) (b : Byte) (s : State) : (writeInByte a b s).err = s.err := rfl
@[simp] theorem writeInByte_act (a : Nat) (b : Byte) (s : State) : (writeInByte a b s).act = s.act := rfl
@[simp] theorem writeInByte_inBuf (a : Nat) (b : Byte) (s : State) : (writeInByte a b s).inBuf = Buffer.store s.inBuf a [b] := rfl
@[simp] theorem writeInByte_outBuf (a : Nat) (b : Byte) (s : State) : (writeInByte a b s).outBuf = s.outBuf := rfl
@[simp] theorem writeInByte_pending (a : Nat) (b : Byte) (s : State) : (writeInByte a b s).pending = s.pending := rfl
@[simp] theorem writeInByte_readData (a : Nat) (b : Byte) (s : State) : (writeInByte a b s).readData = s.readData := rfl
@[simp] theorem writeInByte_freeCount (a : Nat) (b : Byte) (s : State) : (writeInByte a b s).freeCount = s.freeCount := rfl

/-! ### clearResult -/

@[simp] theorem clearResult_pageSize (s : State) : (clearResult s).pageSize = s.pageSize := rfl
@[simp] theorem clearResult_oobSize (s : State) : (clearResult s).oobSize = s.oobSize := rfl
@[simp] theorem clearResult_eccKind (s : State) : (clearResult s).eccKind = s.eccKind := rfl
@[simp] theorem clearResult_wideBus (s : State) : (clearResult s).wideBus = s.wideBus := rfl
@[simp] theorem clearResult_inLen (s : State) : (clearResult s).inLen = s.inLen := rfl
@[simp] theorem clearResult_outLen (s : State) : (clearResult s).outLen = 0 := rfl
@[simp] theorem clearResult_outValid (s : State) : (clearResult s).outValid = false := rfl
@[simp] theorem clearResult_err (s : State) : (clearResult s).err = s.err := rfl
@[simp] theorem clearResult_act (s : State) : (clearResult s).act = s.act := rfl
@[simp] theorem clearResult_inBuf (s : State) : (clearResult s).inBuf = s.inBuf := rfl
@[simp] theorem clearResult_outBuf (s : State) : (clearResult s).outBuf = s.outBuf := rfl
@[simp] theorem clearResult_pending (s : State) : (clearResult s).pending = s.pending := rfl
@[simp] theorem clearResult_readData (s : State) : (clearResult s).readData = s.readData := rfl
@[simp] theorem clearResult_freeCount (s : State) : (clearResult s).freeCount = s.freeCount := rfl

/-! ### raiseError -/

@[simp] theorem raiseError_pageSize (c : ErrorCode) (op : BitVec 4) (s : State) : (raiseError c op s).pageSize = s.pageSize := rfl
@[simp] theorem raiseError_oobSize (c : ErrorCode) (op : BitVec 4) (s : State) : (raiseError c op s).oobSize = s.oobSize := rfl
@[simp] theorem raiseError_eccKind (c : ErrorCode) (op : BitVec 4) (s : State) : (raiseError c op s).eccKind = s.eccKind := rfl
@[simp] theorem raiseError_wideBus (c : ErrorCode) (op : BitVec 4) (s : State) : (raiseError c op s).wideBus = s.wideBus := rfl
@[simp] theorem raiseError_inLen (c : ErrorCode) (op : BitVec 4) (s : State) : (raiseError c op s).inLen = s.inLen := rfl
@[simp] theorem raiseError_outLen (c : ErrorCode) (op : BitVec 4) (s : State) : (raiseError c op s).outLen = 0 := rfl
@[simp] theorem raiseError_outValid (c : ErrorCode) (op : BitVec 4) (s : State) : (raiseError c op s).outValid = false := rfl
@[simp] theorem raiseError_act (c : ErrorCode) (op : BitVec 4) (s : State) : (raiseError c op s).act = s.act := rfl
@[simp] theorem raiseError_inBuf (c : ErrorCode) (op : BitVec 4) (s : State) : (raiseError c op s).inBuf = s.inBuf := rfl
@[simp] theorem raiseError_outBuf (c : ErrorCode) (op : BitVec 4) (s : State) : (raiseError c op s).outBuf = s.outBuf := rfl
@[simp] theorem raiseError_pending (c : ErrorCode) (op : BitVec 4) (s : State) : (raiseError c op s).pending = s.pending := rfl
@[simp] theorem raiseError_readData (c : ErrorCode) (op : BitVec 4) (s : State) : (raiseError c op s).readData = s.readData := rfl
@[simp] theorem raiseError_freeCount (c : ErrorCode) (op : BitVec 4) (s : State) : (raiseError c op s).freeCount = s.freeCount := rfl

/-! ### dropInstance -/

@[simp] theorem dropInstance_pageSize (s : State) : (dropInstance s).pageSize = s.pageSize := rfl
@[simp] theorem dropInstance_oobSize (s : State) : (dropInstance s).oobSize = s.oobSize := rfl
@[simp] theorem dropInstance_eccKind (s : State) : (dropInstance s).eccKind = s.eccKind := rfl
@[simp] theorem dropInstance_wideBus (s : State) : (dropInstance s).wideBus = s.wideBus := rfl
@[simp] theorem dropInstance_inLen (s : State) : (dropInstance s).inLen = s.inLen := rfl
@[simp] theorem dropInstance_outLen (s : State) : (dropInstance s).outLen = 0 := rfl
@[simp] theorem dropInstance_outValid (s : State) : (dropInstance s).outValid = false := rfl
@[simp] theorem dropInstance_err (s : State) : (dropInstance s).err = none := rfl
@[simp] theorem dropInstance_act (s : State) : (dropInstance s).act = none := rfl
@[simp] theorem dropInstance_inBuf (s : State) : (dropInstance s).inBuf = s.inBuf := rfl
@[simp] theorem dropInstance_outBuf (s : State) : (dropInstance s).outBuf = s.outBuf := rfl
@[simp] theorem dropInstance_pending (s : State) : (dropInstance s).pending = s.pending := rfl
@[simp] theorem dropInstance_readData (s : State) : (dropInstance s).readData = s.readData := rfl
@[simp] theorem dropInstance_freeCount (s : State) : (dropInstance s).freeCount = s.freeCount := rfl

/-! ### complete -/

@[simp] theorem complete_pageSize (r : Bytes) (n : Nat) (s : State) : (complete r n s).pageSize = s.pageSize := rfl
@[simp] theorem complete_oobSize (r : Bytes) (n : Nat) (s : State) : (complete r n s).oobSize = s.oobSize := rfl
@[simp] theorem complete_eccKind (r : Bytes) (n : Nat) (s : State) : (complete r n s).eccKind = s.eccKind := rfl
@[simp] theorem complete_wideBus (r : Bytes) (n : Nat) (s : State) : (complete r n s).wideBus = s.wideBus := rfl
@[simp] theorem complete_inLen (r : Bytes) (n : Nat) (s : State) : (complete r n s).inLen = s.inLen := rfl
@[simp] theorem complete_outLen (r : Bytes) (n : Nat) (s : State) : (complete r n s).outLen = BitVec.ofNat 32 n := rfl
@[simp] theorem complete_outValid (r : Bytes) (n : Nat) (s : State) : (complete r n s).outValid = true := rfl
@[simp] theorem complete_err (r : Bytes) (n : Nat) (s : State) : (complete r n s).err = s.err := rfl
@[simp] theorem complete_act (r : Bytes) (n : Nat) (s : State) : (complete r n s).act = s.act := rfl
@[simp] theorem complete_inBuf (r : Bytes) (n : Nat) (s : State) : (complete r n s).inBuf = s.inBuf := rfl
@[simp] theorem complete_outBuf (r : Bytes) (n : Nat) (s : State) : (complete r n s).outBuf = Buffer.store s.outBuf 0 r := rfl
@[simp] theorem complete_pending (r : Bytes) (n : Nat) (s : State) : (complete r n s).pending = s.pending := rfl
@[simp] theorem complete_readData (r : Bytes) (n : Nat) (s : State) : (complete r n s).readData = s.readData := rfl
@[simp] theorem complete_freeCount (r : Bytes) (n : Nat) (s : State) : (complete r n s).freeCount = s.freeCount := rfl

/-! ### resetPF -/

@[simp] theorem resetPF_pageSize (s : State) : (resetPF s).pageSize = 0x00000800 := rfl
@[simp] theorem resetPF_oobSize (s : State) : (resetPF s).oobSize = 0x00000040 := rfl
@[simp] theorem resetPF_eccKind (s : State) : (resetPF s).eccKind = 2 := rfl
@[simp] theorem resetPF_wideBus (s : State) : (resetPF s).wideBus = false := rfl
@[simp] theorem resetPF_inLen (s : State) : (resetPF s).inLen = 0 := rfl
@[simp] theorem resetPF_outLen (s : State) : (resetPF s).outLen = 0 := rfl
@[simp] theorem resetPF_outValid (s : State) : (resetPF s).outValid = false := rfl
@[simp] theorem resetPF_err (s : State) : (resetPF s).err = none := rfl
@[simp] theorem resetPF_act (s : State) : (resetPF s).act = none := rfl
@[simp] theorem resetPF_inBuf (s : State) : (resetPF s).inBuf = [] := rfl
@[simp] theorem resetPF_outBuf (s : State) : (resetPF s).outBuf = [] := rfl
@[simp] theorem resetPF_pending (s : State) : (resetPF s).pending = s.pending := rfl
@[simp] theorem resetPF_readData (s : State) : (resetPF s).readData = s.readData := rfl
@[simp] theorem resetPF_freeCount (s : State) : (resetPF s).freeCount = s.freeCount := rfl

/-! ### latch -/

@[simp] theorem latch_pageSize (a : Act) (s : State) : (latch a s).pageSize = s.pageSize := rfl
@[simp] theorem latch_oobSize (a : Act) (s : State) : (latch a s).oobSize = s.oobSize := rfl
@[simp] theorem latch_eccKind (a : Act) (s : State) : (latch a s).eccKind = s.eccKind := rfl
@[simp] theorem latch_wideBus (a : Act) (s : State) : (latch a s).wideBus = s.wideBus := rfl
@[simp] theorem latch_inLen (a : Act) (s : State) : (latch a s).inLen = s.inLen := rfl
@[simp] theorem latch_outLen (a : Act) (s : State) : (latch a s).outLen = s.outLen := rfl
@[simp] theorem latch_outValid (a : Act) (s : State) : (latch a s).outValid = true := rfl
@[simp] theorem latch_err (a : Act) (s : State) : (latch a s).err = s.err := rfl
@[simp] theorem latch_act (a : Act) (s : State) : (latch a s).act = some a := rfl
@[simp] theorem latch_inBuf (a : Act) (s : State) : (latch a s).inBuf = s.inBuf := rfl
@[simp] theorem latch_outBuf (a : Act) (s : State) : (latch a s).outBuf = s.outBuf := rfl
@[simp] theorem latch_pending (a : Act) (s : State) : (latch a s).pending = s.pending := rfl
@[simp] theorem latch_readData (a : Act) (s : State) : (latch a s).readData = s.readData := rfl
@[simp] theorem latch_freeCount (a : Act) (s : State) : (latch a s).freeCount = s.freeCount := rfl

/-! ### writeEccCfg -/

@[simp] theorem writeEccCfg_pageSize (v : Word) (s : State) : (writeEccCfg v s).pageSize = s.pageSize := rfl
@[simp] theorem writeEccCfg_oobSize (v : Word) (s : State) : (writeEccCfg v s).oobSize = s.oobSize := rfl
@[simp] theorem writeEccCfg_eccKind (v : Word) (s : State) : (writeEccCfg v s).eccKind = v.extractLsb' 0 4 := rfl
@[simp] theorem writeEccCfg_wideBus (v : Word) (s : State) : (writeEccCfg v s).wideBus = v.getLsbD 8 := rfl
@[simp] theorem writeEccCfg_inLen (v : Word) (s : State) : (writeEccCfg v s).inLen = s.inLen := rfl
@[simp] theorem writeEccCfg_outLen (v : Word) (s : State) : (writeEccCfg v s).outLen = s.outLen := rfl
@[simp] theorem writeEccCfg_outValid (v : Word) (s : State) : (writeEccCfg v s).outValid = s.outValid := rfl
@[simp] theorem writeEccCfg_err (v : Word) (s : State) : (writeEccCfg v s).err = s.err := rfl
@[simp] theorem writeEccCfg_act (v : Word) (s : State) : (writeEccCfg v s).act = s.act := rfl
@[simp] theorem writeEccCfg_inBuf (v : Word) (s : State) : (writeEccCfg v s).inBuf = s.inBuf := rfl
@[simp] theorem writeEccCfg_outBuf (v : Word) (s : State) : (writeEccCfg v s).outBuf = s.outBuf := rfl
@[simp] theorem writeEccCfg_pending (v : Word) (s : State) : (writeEccCfg v s).pending = s.pending := rfl
@[simp] theorem writeEccCfg_readData (v : Word) (s : State) : (writeEccCfg v s).readData = s.readData := rfl
@[simp] theorem writeEccCfg_freeCount (v : Word) (s : State) : (writeEccCfg v s).freeCount = s.freeCount := rfl

/-! ### deliver -/

@[simp] theorem deliver_pageSize (d : ReadData) (s : State) : (deliver d s).pageSize = s.pageSize := rfl
@[simp] theorem deliver_oobSize (d : ReadData) (s : State) : (deliver d s).oobSize = s.oobSize := rfl
@[simp] theorem deliver_eccKind (d : ReadData) (s : State) : (deliver d s).eccKind = s.eccKind := rfl
@[simp] theorem deliver_wideBus (d : ReadData) (s : State) : (deliver d s).wideBus = s.wideBus := rfl
@[simp] theorem deliver_inLen (d : ReadData) (s : State) : (deliver d s).inLen = s.inLen := rfl
@[simp] theorem deliver_outLen (d : ReadData) (s : State) : (deliver d s).outLen = s.outLen := rfl
@[simp] theorem deliver_outValid (d : ReadData) (s : State) : (deliver d s).outValid = s.outValid := rfl
@[simp] theorem deliver_err (d : ReadData) (s : State) : (deliver d s).err = s.err := rfl
@[simp] theorem deliver_act (d : ReadData) (s : State) : (deliver d s).act = s.act := rfl
@[simp] theorem deliver_inBuf (d : ReadData) (s : State) : (deliver d s).inBuf = s.inBuf := rfl
@[simp] theorem deliver_outBuf (d : ReadData) (s : State) : (deliver d s).outBuf = s.outBuf := rfl
@[simp] theorem deliver_pending (d : ReadData) (s : State) : (deliver d s).pending = s.pending := rfl
@[simp] theorem deliver_readData (d : ReadData) (s : State) : (deliver d s).readData = some d := rfl
@[simp] theorem deliver_freeCount (d : ReadData) (s : State) : (deliver d s).freeCount = s.freeCount := rfl

/-! ### placeCommand -/

@[simp] theorem placeCommand_pageSize (w : Word) (s : State) : (placeCommand w s).pageSize = s.pageSize := rfl
@[simp] theorem placeCommand_oobSize (w : Word) (s : State) : (placeCommand w s).oobSize = s.oobSize := rfl
@[simp] theorem placeCommand_eccKind (w : Word) (s : State) : (placeCommand w s).eccKind = s.eccKind := rfl
@[simp] theorem placeCommand_wideBus (w : Word) (s : State) : (placeCommand w s).wideBus = s.wideBus := rfl
@[simp] theorem placeCommand_inLen (w : Word) (s : State) : (placeCommand w s).inLen = s.inLen := rfl
@[simp] theorem placeCommand_outLen (w : Word) (s : State) : (placeCommand w s).outLen = s.outLen := rfl
@[simp] theorem placeCommand_outValid (w : Word) (s : State) : (placeCommand w s).outValid = s.outValid := rfl
@[simp] theorem placeCommand_err (w : Word) (s : State) : (placeCommand w s).err = s.err := rfl
@[simp] theorem placeCommand_act (w : Word) (s : State) : (placeCommand w s).act = s.act := rfl
@[simp] theorem placeCommand_inBuf (w : Word) (s : State) : (placeCommand w s).inBuf = s.inBuf := rfl
@[simp] theorem placeCommand_outBuf (w : Word) (s : State) : (placeCommand w s).outBuf = s.outBuf := rfl
@[simp] theorem placeCommand_pending (w : Word) (s : State) : (placeCommand w s).pending = cmdWrite w :: s.pending := rfl
@[simp] theorem placeCommand_readData (w : Word) (s : State) : (placeCommand w s).readData = s.readData := rfl
@[simp] theorem placeCommand_freeCount (w : Word) (s : State) : (placeCommand w s).freeCount = s.freeCount := rfl

/-- The first error wins (60_exceptions.md R222). -/
@[simp] theorem raiseError_err (c : ErrorCode) (op : BitVec 4) (s : State) :
    (raiseError c op s).err = some (s.err.getD { code := c, op := op }) := by
  unfold raiseError
  cases s.err <;> rfl

end Sys2Proof.Machine
end

