-- ==== Sys2Proof/Laws/Ops.lean ====
section
/-! SUPPORT. What each shared operation can do, said once (60_exceptions.md R222, R223; 42_page.md R181), so that no
proof unfolds it. -/

namespace Sys2Proof.Machine

@[simp] theorem readIn_length (s : State) (n : Nat) : (readIn s n).length = n := by simp [readIn]

/-- A byte of IN the host wrote is read as written (10_state.md R38). -/
theorem inByte_of_written {s : State} {a : Nat} {b : Byte} (h : Buffer.byteAt s.inBuf a = some b) (draw : Nat) :
    inByte s a draw = b := by simp [inByte, h]

/-- MemRead(IN, 0, n) agrees with every byte the host wrote (R38). -/
theorem readIn_of_written {s : State} {n k : Nat} {b : Byte} (hk : k < n) (h : Buffer.byteAt s.inBuf k = some b) :
    (readIn s n)[k]? = some b := by
  simp [readIn, hk, inByte_of_written h]

/-- MemRead(IN, 0, n) of n bytes the host wrote is those bytes. -/
theorem readIn_eq {s : State} {data : Bytes}
    (h : ∀ k (hk : k < data.length), Buffer.byteAt s.inBuf k = some data[k]) : readIn s data.length = data := by
  apply List.ext_getElem?
  intro k
  by_cases hk : k < data.length
  · rw [readIn_of_written hk (h k hk), List.getElem?_eq_getElem hk]
  · rw [List.getElem?_eq_none (by simp; omega), List.getElem?_eq_none (by omega)]

theorem unlessError_of_none {s : State} (h : s.err = none) (run : State → State) : unlessError s run = run s := by
  simp [unlessError, h]

theorem unlessError_of_some {s : State} {e : ErrorRecord} (h : s.err = some e) (run : State → State) :
    unlessError s run = s := by simp [unlessError, h]

/-- The errors a data command can raise, in the order of its checks, with the draws it used before. -/
def DataError (c : DataCommand) (s : State) (e : ErrorCode) (draws : Nat) : Prop :=
  (s.act = none ∧ e = .notConfigured ∧ draws = 0) ∨
  ∃ a, s.act = some a ∧
    ((c.limit a < s.inLen.toNat ∧ e = c.oversize a ∧ draws = 0) ∨
     (s.inLen.toNat ≤ c.limit a ∧ inBufBytes < s.inLen.toNat ∧ e = .inRange ∧ draws = 0) ∨
     (s.inLen.toNat ≤ c.limit a ∧ s.inLen.toNat ≤ inBufBytes ∧ c.run a (readIn s s.inLen.toNat) = .error e ∧
       draws = s.inLen.toNat))

/-- Everything a data command can do: it is dropped, it raises an error, or it completes. -/
theorem dataCommand_cases (c : DataCommand) (s : State) :
    (s.err ≠ none ∧ dataCommand c s = s) ∨
    (s.err = none ∧ ∃ e draws, DataError c s e draws ∧
      dataCommand c s = raiseError e (opcodeOf c.instr) (drew draws (clearResult s))) ∨
    (s.err = none ∧ ∃ a r, s.act = some a ∧ s.inLen.toNat ≤ c.limit a ∧ s.inLen.toNat ≤ inBufBytes ∧
      c.run a (readIn s s.inLen.toNat) = .ok r ∧
      dataCommand c s = complete r (c.size a) (drew s.inLen.toNat (clearResult s))) := by
  cases he : s.err with
  | some e => exact .inl ⟨by simp, unlessError_of_some he _⟩
  | none =>
    refine .inr ?_
    rw [dataCommand, unlessError_of_none he, dataBody]
    cases ha : s.act with
    | none => exact .inl ⟨rfl, .notConfigured, 0, .inl ⟨ha, rfl, rfl⟩, rfl⟩
    | some a =>
      by_cases h1 : c.limit a < s.inLen.toNat
      · simp only [h1, if_true]
        exact .inl ⟨trivial, c.oversize a, 0, .inr ⟨a, ha, .inl ⟨h1, rfl, rfl⟩⟩, rfl⟩
      · simp only [h1, if_false]
        by_cases h2 : inBufBytes < s.inLen.toNat
        · simp only [h2, if_true]
          exact .inl ⟨trivial, .inRange, 0, .inr ⟨a, ha, .inr (.inl ⟨by omega, h2, rfl, rfl⟩)⟩, rfl⟩
        · simp only [h2, if_false, finish]
          cases hr : c.run a (readIn s s.inLen.toNat) with
          | error e =>
            exact .inl ⟨trivial, e, s.inLen.toNat, .inr ⟨a, ha, .inr (.inr ⟨by omega, by omega, hr, rfl⟩)⟩, rfl⟩
          | ok r => exact .inr ⟨trivial, a, r, rfl, by omega, by omega, hr, rfl⟩

/-- A data command that passes every check completes. -/
theorem dataCommand_ok {c : DataCommand} {s : State} {a : Act} {r : Bytes} (he : s.err = none) (ha : s.act = some a)
    (hl : s.inLen.toNat ≤ c.limit a) (hb : s.inLen.toNat ≤ inBufBytes)
    (hr : c.run a (readIn s s.inLen.toNat) = .ok r) :
    dataCommand c s = complete r (c.size a) (drew s.inLen.toNat (clearResult s)) := by
  simp [dataCommand, unlessError_of_none he, dataBody, ha, show ¬ c.limit a < s.inLen.toNat by omega,
    show ¬ inBufBytes < s.inLen.toNat by omega, finish, hr]

/-- Everything CONFIGURE can do: it latches the ACT its checks gave, or raises their error unconfigured (R183, R184). -/
theorem configureCommand_cases (s : State) :
    (∃ a, configureAct s.pageSize.toNat s.oobSize.toNat s.eccKind s.wideBus = .ok a ∧
      configureCommand s = latch a (dropInstance s)) ∨
    (∃ e, configureAct s.pageSize.toNat s.oobSize.toNat s.eccKind s.wideBus = .error e ∧
      configureCommand s = raiseError e 1 (dropInstance s)) := by
  unfold configureCommand
  cases configureAct s.pageSize.toNat s.oobSize.toNat s.eccKind s.wideBus with
  | ok a => exact .inl ⟨a, rfl, rfl⟩
  | error e => exact .inr ⟨e, rfl, rfl⟩

/-- What CONFIGURE's checks let through (R181). -/
theorem configureAct_ok {p o : Nat} {k : BitVec 4} {w : Bool} {a : Act} (h : configureAct p o k w = .ok a) :
    0 < p ∧ 0 < o ∧ p ≤ maxPageSize ∧ o ≤ maxOobSize ∧
      ∃ kind, kindOf k = some kind ∧ a = buildAct p o kind w ∧ a.bbm + a.parity ≤ a.opc ∧
        a.required ≤ a.pageSize + a.oobSize := by
  unfold configureAct at h
  split at h
  · cases h
  · split at h
    · cases h
    · cases hk : kindOf k with
      | none => simp [hk] at h
      | some kind =>
        simp only [hk, checkAct] at h
        split at h
        · cases h
        · split at h
          · cases h
          · cases h
            refine ⟨by omega, by omega, by omega, by omega, kind, rfl, rfl, by omega, by omega⟩

end Sys2Proof.Machine
end

