-- ==== Sys2Proof/Laws/Bus.lean ====
section
/-! SUPPORT. What a step does with the oldest pending access (20_memory.md R60-R73), said once per access. -/

namespace Sys2Proof.Machine

theorem step_idle {s : State} (h : s.pending = []) : step s = .next s := by simp [step, hostTurn, h]

theorem step_access {s : State} {x : Access} {rest : List Access} (h : s.pending = x :: rest) :
    step s = hostAccess x { s with pending := rest } := by simp [step, hostTurn, h]

/-- Every register sits at its offset, and no other offset holds one (10_state.md R23). -/
theorem regAt_offset (r : Reg) : regAt r.offset = some r := by cases r <;> rfl

theorem regTarget_offset (r : Reg) : regTarget 32 r.offset = .ok r := by cases r <;> rfl

theorem hostRead_reg (r : Reg) (s : State) :
    hostRead .reg 32 r.offset s = .next (deliver (.word (readReg r s)) s) := by
  simp [hostRead, regTarget_offset]

theorem hostWrite_reg (r : Reg) (v : Word) (s : State) : hostWrite .reg 32 r.offset v s = writeReg r v s := by
  simp [hostWrite, regTarget_offset]

/-- A CMD write issues its command (R223). -/
theorem hostAccess_cmdWrite (w : Word) (s : State) : hostAccess (cmdWrite w) s = issueCommand w s := by
  simp [cmdWrite, hostAccess, resolve, hostWrite_reg, writeReg]

theorem step_cmdWrite {s : State} {w : Word} {rest : List Access} (h : s.pending = cmdWrite w :: rest) :
    step s = issueCommand w { s with pending := rest } := by rw [step_access h, hostAccess_cmdWrite]

/-- The next step of a state with a word placed runs exactly that word (log 17). -/
theorem step_withFetchWord (s : State) (nbits w : Nat) :
    step (s.withFetchWord nbits w) = issueCommand (tableWord nbits w) s :=
  step_cmdWrite (s := s.withFetchWord nbits w) rfl

/-- What a CMD write can be: a command, or an ILLEGAL word (R223). -/
theorem issueCommand_cases {w : Word} {s t : State} (h : issueCommand w s = .next t) :
    (∃ i, decode w = .ok i ∧ exec i s = .next t) ∨
    ((∃ e, decode w = .error e) ∧ t = illegalCommand (opcodeField w) s) := by
  unfold issueCommand at h
  cases hd : decode w with
  | ok i =>
    rw [hd] at h
    exact .inl ⟨i, rfl, h⟩
  | error e =>
    rw [hd] at h
    cases h
    exact .inr ⟨⟨e, rfl⟩, rfl⟩

/-- Only an aligned 32-bit access inside REG reaches a register, at its own offset (R62, R63). -/
theorem regTarget_ok {width off : Nat} {r : Reg} (h : regTarget width off = .ok r) : width = 32 ∧ off = r.offset := by
  unfold regTarget at h
  split at h
  · cases h
  · split at h
    · cases h
    · split at h
      · cases h
      · split at h
        · cases h
        · rename_i hw _ _ _ r' hr
          cases h
          have hoff := List.find?_some hr
          simp only [beq_iff_eq] at hoff
          exact ⟨by simpa using hw, hoff.symm⟩

/-- Only a one-byte access inside the space reaches a buffer (R64). -/
theorem bufferTarget_ok {size width off a : Nat} (h : bufferTarget size width off = .ok a) :
    width = 8 ∧ off = a ∧ a < size := by
  unfold bufferTarget at h
  split at h
  · cases h
  · split at h
    · cases h
    · rename_i hw hlt
      cases h
      exact ⟨by simpa using hw, rfl, by omega⟩

/-- Everything a step with a next state can do: nothing, with no access pending; else the oldest access is consumed and
it is a reset, a read, a store to a register, a CMD write, a write of an IN byte, or an ignored write to OUT. -/
theorem step_cases {s t : State} (h : step s = .next t) :
    (s.pending = [] ∧ t = s) ∨
    ∃ x rest, s.pending = x :: rest ∧
      ((x = .reset ∧ t = resetPF { s with pending := rest }) ∨
       (∃ loc w d n, x = .read loc w ∧ t = deliver d (drew n { s with pending := rest })) ∨
       (∃ loc r v, x = .write loc 32 v ∧ r ≠ Reg.cmd ∧ resolve loc = .ok (.reg, r.offset) ∧
         t = storeReg r v { s with pending := rest }) ∨
       (∃ loc v, x = .write loc 32 v ∧ resolve loc = .ok (.reg, 0) ∧
         issueCommand v { s with pending := rest } = .next t) ∨
       (∃ loc a v, x = .write loc 8 v ∧ resolve loc = .ok (.inBuf, a) ∧ a < inBufBytes ∧
         t = writeInByte a (v.setWidth 8) { s with pending := rest }) ∨
       (∃ loc a v, x = .write loc 8 v ∧ resolve loc = .ok (.outBuf, a) ∧ t = { s with pending := rest })) := by
  cases hp : s.pending with
  | nil =>
    rw [step_idle hp] at h
    cases h
    exact .inl ⟨rfl, rfl⟩
  | cons x rest =>
    refine .inr ⟨x, rest, rfl, ?_⟩
    rw [step_access hp] at h
    cases x with
    | reset =>
      cases h
      exact .inl ⟨rfl, rfl⟩
    | read loc w =>
      refine .inr (.inl ?_)
      simp only [hostAccess] at h
      cases hr : resolve loc with
      | error e => simp [hr] at h
      | ok y =>
        obtain ⟨sp, off⟩ := y
        simp only [hr, hostRead] at h
        cases sp <;> simp only at h <;> split at h <;> cases h
        · exact ⟨loc, w, _, 0, rfl, rfl⟩
        · exact ⟨loc, w, _, 1, rfl, rfl⟩
        · exact ⟨loc, w, _, 1, rfl, rfl⟩
    | write loc w v =>
      refine .inr (.inr ?_)
      simp only [hostAccess] at h
      cases hr : resolve loc with
      | error e => simp [hr] at h
      | ok y =>
        obtain ⟨sp, off⟩ := y
        simp only [hr, hostWrite] at h
        cases sp with
        | reg =>
          simp only at h
          split at h
          · cases h
          · rename_i r hreg
            obtain ⟨rfl, rfl⟩ := regTarget_ok hreg
            unfold writeReg at h
            split at h
            · rename_i hc
              subst hc
              exact .inr (.inl ⟨loc, v, rfl, hr, h⟩)
            · rename_i hc
              cases h
              exact .inl ⟨loc, r, v, rfl, hc, hr, rfl⟩
        | inBuf =>
          simp only at h
          split at h
          · cases h
          · rename_i a hb
            obtain ⟨rfl, rfl, hlt⟩ := bufferTarget_ok hb
            cases h
            exact .inr (.inr (.inl ⟨loc, off, v, rfl, hr, hlt, rfl⟩))
        | outBuf =>
          simp only at h
          split at h
          · cases h
          · rename_i a hb
            obtain ⟨rfl, -, -⟩ := bufferTarget_ok hb
            cases h
            exact .inr (.inr (.inr ⟨loc, off, v, rfl, hr, rfl⟩))

/-- A register store touches no buffer, result, error record, ACT or host-side field (R71). -/
theorem storeReg_frame (r : Reg) (v : Word) (s : State) :
    (storeReg r v s).outLen = s.outLen ∧ (storeReg r v s).outValid = s.outValid ∧ (storeReg r v s).err = s.err ∧
    (storeReg r v s).act = s.act ∧ (storeReg r v s).inBuf = s.inBuf ∧ (storeReg r v s).outBuf = s.outBuf ∧
    (storeReg r v s).pending = s.pending ∧ (storeReg r v s).readData = s.readData ∧
    (storeReg r v s).freeCount = s.freeCount := by
  cases r <;> simp [storeReg]

end Sys2Proof.Machine
end

