-- ==== Sys2Proof/Laws/Params.lean ====
section
/-! SUPPORT. The parameters lie where 00_scope.md R9 puts them, and the parity sizes are those of 40_codec.md R122. -/

namespace Sys2Proof.Machine

theorem maxPageSize_ge : 2048 ≤ maxPageSize := Nat.le_add_right _ _

theorem maxPageSize_le : maxPageSize ≤ 2 ^ 32 - 65 := by
  have := Nat.mod_lt Config.pageMargin (y := 2 ^ 32 - 2048 - 64) (by decide)
  unfold maxPageSize
  omega

theorem maxOobSize_ge : 64 ≤ maxOobSize := Nat.le_add_right _ _

/-- MAX_PAGE_SIZE + MAX_OOB_SIZE < 2^32 (R9). -/
theorem maxima_sum_lt : maxPageSize + maxOobSize < 2 ^ 32 := by
  have hp := maxPageSize_le
  have := Nat.mod_lt Config.oobMargin (y := 2 ^ 32 - 64 - maxPageSize) (by omega)
  unfold maxOobSize
  omega

theorem maxPageSize_le_inBufBytes : maxPageSize ≤ inBufBytes := by unfold inBufBytes; omega

theorem rsMessageLength_le_inBufBytes : rsMessageLength ≤ inBufBytes := by
  unfold inBufBytes rsMessageLength; omega

theorem inBufBytes_ge : 2048 ≤ inBufBytes := le_trans maxPageSize_ge maxPageSize_le_inBufBytes

theorem maxima_sum_le_outBufBytes : maxPageSize + maxOobSize ≤ outBufBytes := Nat.le_add_right _ _

theorem outBufBytes_ge : 2112 ≤ outBufBytes := by
  have := maxPageSize_ge
  have := maxOobSize_ge
  have := maxima_sum_le_outBufBytes
  omega

theorem bchMaxDataBytes_ge (t : Strength) : 516 ≤ bchMaxDataBytes t := Nat.le_add_right _ _

@[simp] theorem bchParitySize_four : bchParitySize .four = 7 := rfl
@[simp] theorem bchParitySize_eight : bchParitySize .eight = 13 := rfl
@[simp] theorem paritySize_bch (t : Strength) : (Codec.bch t).paritySize = bchParitySize t := rfl
@[simp] theorem paritySize_reedSolomon : Codec.reedSolomon.paritySize = 10 := rfl
@[simp] theorem maxInput_reedSolomon : Codec.reedSolomon.maxInput = 1015 := rfl
@[simp] theorem maxInput_bch (t : Strength) : (Codec.bch t).maxInput = bchMaxDataBytes t := rfl

/-- R142 (b). -/
@[simp] theorem bchEncode_length (t : Strength) (d : Bytes) : (bchEncode t d).length = bchParitySize t := by
  simp [bchEncode]

/-- Every codec accepts a data unit (R141, R132). -/
theorem maxInput_ge (c : Codec) : 516 ≤ c.maxInput := by
  cases c with
  | bch t => exact bchMaxDataBytes_ge t
  | reedSolomon => decide

end Sys2Proof.Machine
end

