-- ==== Sys2Proof/Laws/Codec.lean ====
section
/-! SUPPORT. The lengths of the codec's results, when it accepts an input, and what leading zero symbols do
(40_codec.md R122, R132, R143), and when the chunk assembler answers (41_chunk.md R165). -/

namespace Sys2Proof.Machine

@[simp] theorem rep_length (n : Nat) (v : Byte) : (rep n v).length = n := List.length_replicate

@[simp] theorem slice_length (b : Bytes) (i j : Nat) : (slice b i j).length = min j b.length - i := by simp [slice]

@[simp] theorem padRight_length (n : Nat) (v : Byte) (b : Bytes) : (padRight n v b).length = max n b.length := by
  simp [padRight]
  omega

@[simp] theorem padLeft_length (n : Nat) (v : Byte) (b : Bytes) : (padLeft n v b).length = max n b.length := by
  simp [padLeft]
  omega

@[simp] theorem xtime_zero : xtime 0#10 = 0#10 := by decide

@[simp] theorem gfmul_zero_left (b : Sym) : gfmul 0#10 b = 0#10 := by
  have turn : ∀ i, gfmulTurn b (0#10, 0#10) i = (0#10, 0#10) := fun i => by simp [gfmulTurn]
  have fold : ∀ l : List Nat, l.foldl (gfmulTurn b) (0#10, 0#10) = (0#10, 0#10) := fun l => by
    induction l with
    | nil => rfl
    | cons i l ih => rw [List.foldl_cons, turn, ih]
  simp [gfmul, fold]

theorem rsTurn_length {r : List Sym} (h : r.length = 8) (s : Sym) : (rsTurn r s).length = 8 := by
  simp [rsTurn, h, generator]

theorem rsRemainder_length (ss : List Sym) : (rsRemainder ss).length = 8 := by
  have fold : ∀ r : List Sym, r.length = 8 → (ss.foldl rsTurn r).length = 8 := by
    induction ss with
    | nil => exact fun r h => h
    | cons s ss ih => exact fun r h => ih _ (rsTurn_length h s)
  exact fold _ rfl

@[simp] theorem pack10_length (p : List Sym) : (pack10 p).length = 10 := by simp [pack10]

/-- A zero symbol leaves the zero remainder at zero (R132). -/
theorem rsTurn_zero : rsTurn rsZero 0 = rsZero := by
  simp [rsTurn, rsZero, generator, List.replicate]

/-- Leading zero symbols leave the remainder as it is (R132, R129). -/
theorem rsRemainder_leading_zeros (k : Nat) (ss : List Sym) :
    rsRemainder (List.replicate k 0 ++ ss) = rsRemainder ss := by
  have fold : (List.replicate k (0 : Sym)).foldl rsTurn rsZero = rsZero := by
    induction k with
    | zero => rfl
    | succ k ih => rw [List.replicate_succ, List.foldl_cons, rsTurn_zero, ih]
  simp only [rsRemainder, List.foldl_append, fold]

/-- The parity symbols of an input are the remainder of its own symbols: the left padding adds none (R132). -/
theorem rsParity_eq (data : Bytes) : rsParity data = rsRemainder (toSymbols data) := by
  simp only [rsParity, rsMessage, toSymbols, padLeft, rep, List.map_append, List.map_replicate]
  exact rsRemainder_leading_zeros _ _

theorem rsEncode_ok {data : Bytes} (h : data.length ≤ 1015) :
    rsEncode data = .ok (pack10 (rsRemainder (toSymbols data))) := by
  simp [rsEncode, rsParity_eq, rsMessageLength, show ¬ 1015 < data.length by omega]

theorem rsEncode_error {data : Bytes} (h : 1015 < data.length) : rsEncode data = .error .oversizeRs := by
  simp [rsEncode, rsMessageLength, h]

/-- The codec accepts exactly the inputs within its limit (R132, R141). -/
theorem codecEncode_error_iff (c : Codec) (data : Bytes) :
    (∃ e, codecEncode c data = .error e) ↔ c.maxInput < data.length := by
  cases c with
  | bch t =>
    simp only [codecEncode, bchEncodeOp, maxInput_bch]
    split <;> simp_all
  | reedSolomon =>
    simp only [codecEncode, rsEncode, Codec.maxInput]
    split <;> simp_all

/-- What the codec answers when it accepts: parity_size bytes (R122). -/
theorem codecEncode_length {c : Codec} {data p : Bytes} (h : codecEncode c data = .ok p) :
    p.length = c.paritySize := by
  cases c with
  | bch t =>
    simp only [codecEncode, bchEncodeOp] at h
    split at h
    · cases h
    · cases h; simp
  | reedSolomon =>
    simp only [codecEncode, rsEncode] at h
    split at h
    · cases h
    · cases h; simp

theorem codecEncode_ok {c : Codec} {data : Bytes} (h : data.length ≤ c.maxInput) :
    ∃ p, codecEncode c data = .ok p ∧ p.length = c.paritySize := by
  cases hp : codecEncode c data with
  | ok p => exact ⟨p, rfl, codecEncode_length hp⟩
  | error e => exact absurd ((codecEncode_error_iff c data).mp ⟨e, hp⟩) (by omega)

/-- What the chunk assembler answers (R165). -/
theorem chunkProgram_ok_iff (a : Act) (u c : Bytes) :
    chunkProgram a u = .ok c ↔ u.length ≤ a.du ∧
      ∃ p, codecEncode a.codec (paddedUnit a u) = .ok p ∧ c = layChunk a (paddedUnit a u) p := by
  unfold chunkProgram
  split
  · simp
    omega
  · cases codecEncode a.codec (paddedUnit a u) with
    | error e => simp
    | ok p => simp [eq_comm]; omega

end Sys2Proof.Machine
end

