-- ==== Sys2Proof/Laws/Flags.lean ====
section
/-! SUPPORT. The bits of a placed field, from which every field of STATUS, ECC_CFG and CODEC is read off. -/

namespace Sys2Proof.Machine

@[simp] theorem getLsbD_place {n : Nat} (lo : Nat) (field : BitVec n) (k : Nat) :
    (place lo field).getLsbD k = (decide (k < 32) && decide (lo ≤ k) && field.getLsbD (k - lo)) := by
  by_cases h1 : k < 32 <;> by_cases h2 : k < lo <;>
    simp [place, BitVec.getLsbD_shiftLeft, BitVec.getLsbD_setWidth, h1, h2]
  all_goals omega

/-- Every error code is nonzero, so ERR is set exactly while an error is recorded (10_state.md R25, R221). -/
theorem number_ne_zero (c : ErrorCode) : c.number ≠ 0 := by cases c <;> decide

@[simp] theorem errFlag_eq (s : State) : errFlag s = s.err.isSome := by
  unfold errFlag errCode
  cases s.err with
  | none => rfl
  | some e => simpa using number_ne_zero e.code

end Sys2Proof.Machine
end

