-- ==== Sys2Proof/Laws/Legal.lean ====
section
/-! SUPPORT. The fields of a legal ACT (42_page.md R181, 41_chunk.md R161-R163), one lemma each, and what passes
CONFIGURE's checks is legal. -/

namespace Sys2Proof.Machine

theorem legal_du {a : Act} (h : a.Legal) : a.du = a.kind.dataUnit := congrArg Act.du h.built

theorem legal_opc {a : Act} (h : a.Legal) : a.opc = a.kind.oobPerChunk := congrArg Act.opc h.built

theorem legal_bbm {a : Act} (h : a.Legal) : a.bbm = bbmSize a.wide := congrArg Act.bbm h.built

theorem legal_codec {a : Act} (h : a.Legal) : a.codec = a.kind.codec := congrArg Act.codec h.built

theorem legal_parity {a : Act} (h : a.Legal) : a.parity = a.codec.paritySize := by
  rw [legal_codec h]
  exact congrArg Act.parity h.built

theorem legal_chunkSize {a : Act} (h : a.Legal) : a.chunkSize = a.du + a.opc := by
  rw [legal_du h, legal_opc h]
  exact congrArg Act.chunkSize h.built

theorem legal_bbmOffset {a : Act} (h : a.Legal) : a.bbmOffset = a.pageSize % (a.du + a.opc) := by
  rw [legal_du h, legal_opc h]
  exact congrArg Act.bbmOffset h.built

theorem legal_chunksNeeded {a : Act} (h : a.Legal) : a.chunksNeeded = ceilDiv a.pageSize a.du := by
  rw [legal_du h]
  exact congrArg Act.chunksNeeded h.built

theorem legal_required {a : Act} (h : a.Legal) : a.required = a.chunksNeeded * (a.du + a.opc) := by
  rw [legal_chunksNeeded h, legal_du h, legal_opc h]
  exact congrArg Act.required h.built

/-- data_unit_size is 516 or 512 (R161). -/
theorem legal_du_cases {a : Act} (h : a.Legal) : a.du = 516 ∨ a.du = 512 := by
  rw [legal_du h]
  cases a.kind <;> simp [EccKind.dataUnit]

/-- oob_per_chunk is 12 or 16 (R161). -/
theorem legal_opc_cases {a : Act} (h : a.Legal) : a.opc = 12 ∨ a.opc = 16 := by
  rw [legal_opc h]
  cases a.kind <;> simp [EccKind.oobPerChunk]

/-- bbm_size is 1 or 2 (R161). -/
theorem legal_bbm_cases {a : Act} (h : a.Legal) : a.bbm = 1 ∨ a.bbm = 2 := by
  rw [legal_bbm h]
  cases a.wide <;> simp [bbmSize]

/-- The page image fits in OUT and in 32 bits (00_scope.md R9). -/
theorem legal_image {a : Act} (h : a.Legal) :
    a.pageSize + a.oobSize ≤ outBufBytes ∧ a.pageSize + a.oobSize < 2 ^ 32 := by
  have := h.pageMax
  have := h.oobMax
  have := maxima_sum_lt
  have := maxima_sum_le_outBufBytes
  omega

/-- IN holds a whole page and a whole data unit (20_memory.md R66). -/
theorem legal_input {a : Act} (h : a.Legal) : a.pageSize ≤ inBufBytes ∧ a.du ≤ inBufBytes := by
  have := h.pageMax
  have := maxPageSize_le_inBufBytes
  have := inBufBytes_ge
  have := legal_du_cases h
  omega

/-- A built ACT is legal when its sizes are positive, within the capacities, and meet the budget; the geometry
invariant holds for every row of the table (R162). -/
theorem buildAct_legal {p o : Nat} {kind : EccKind} {wide : Bool} (hp : 0 < p) (ho : 0 < o) (hpm : p ≤ maxPageSize)
    (hom : o ≤ maxOobSize) (hb : ceilDiv p kind.dataUnit * kind.chunkSize ≤ p + o) :
    (buildAct p o kind wide).Legal where
  built := rfl
  pagePos := hp
  oobPos := ho
  pageMax := hpm
  oobMax := hom
  geometry := by
    change bbmSize wide + kind.codec.paritySize ≤ kind.oobPerChunk
    cases kind <;> cases wide <;> decide
  budget := hb

end Sys2Proof.Machine
end

