-- ==== Sys2Proof/Laws/Memory.lean ====
section
/-! SUPPORT. The buffer operations keep the canonical form and the bound of their space, and a read after a store gives
the stored byte inside the stored range and the old byte elsewhere. -/

namespace Sys2Proof.Machine

/-- The canonical form in terms of the list: every offset at or above `lo`, offsets strictly rising. -/
theorem risingFrom_iff (lo : Nat) (m : Buffer) :
    Buffer.risingFrom lo m = true ↔ (∀ c ∈ m, lo ≤ c.1) ∧ m.Pairwise (fun c d => c.1 < d.1) := by
  induction m generalizing lo with
  | nil => simp [Buffer.risingFrom]
  | cons c m ih =>
    simp only [Buffer.risingFrom, Bool.and_eq_true, decide_eq_true_eq, ih, List.pairwise_cons, List.mem_cons,
      forall_eq_or_imp]
    constructor
    · rintro ⟨h, hge, hp⟩
      exact ⟨⟨h, fun d hd => by have := hge d hd; omega⟩, fun d hd => hge d hd, hp⟩
    · rintro ⟨⟨h, -⟩, hlt, hp⟩
      exact ⟨h, fun d hd => hlt d hd, hp⟩

theorem wf_iff (m : Buffer) : Buffer.wf m = true ↔ m.Pairwise (fun c d => c.1 < d.1) := by
  simp [Buffer.wf, risingFrom_iff]

theorem within_iff (n : Nat) (m : Buffer) : Buffer.within n m = true ↔ ∀ c ∈ m, c.1 < n := by
  simp [Buffer.within]

/-- The cells of a stored string lie at its offsets. -/
theorem mem_cells {a : Nat} {bs : Bytes} {c : Host.Cell} (h : c ∈ Buffer.cells a bs) :
    a ≤ c.1 ∧ c.1 < a + bs.length := by
  induction bs generalizing a with
  | nil => simp [Buffer.cells] at h
  | cons b bs ih =>
    rcases List.mem_cons.mp h with rfl | h
    · simp
    · have := ih h
      simp only [List.length_cons]
      omega

theorem cells_pairwise (a : Nat) (bs : Bytes) : (Buffer.cells a bs).Pairwise (fun c d => c.1 < d.1) := by
  induction bs generalizing a with
  | nil => exact List.Pairwise.nil
  | cons b bs ih => exact List.Pairwise.cons (fun c hc => (mem_cells hc).1) (ih (a + 1))

/-- A store keeps the canonical form. -/
theorem store_wf {m : Buffer} (a : Nat) (bs : Bytes) (h : Buffer.wf m = true) :
    Buffer.wf (Buffer.store m a bs) = true := by
  rw [wf_iff] at h ⊢
  simp only [Buffer.store, List.pairwise_append]
  refine ⟨⟨h.filter _, cells_pairwise a bs, ?_⟩, h.filter _, ?_⟩
  · intro c hc d hd
    have := (mem_cells hd).1
    simp only [List.mem_filter, decide_eq_true_eq] at hc
    omega
  · intro c hc d hd
    simp only [List.mem_filter, decide_eq_true_eq, List.mem_append] at hc hd
    rcases hc with hc | hc
    · omega
    · have := (mem_cells hc).2
      omega

/-- A store inside the space keeps every offset inside it. -/
theorem store_within {m : Buffer} {n : Nat} (a : Nat) (bs : Bytes) (h : Buffer.within n m = true)
    (hb : a + bs.length ≤ n) : Buffer.within n (Buffer.store m a bs) = true := by
  rw [within_iff] at h ⊢
  intro c hc
  simp only [Buffer.store, List.mem_append, List.mem_filter] at hc
  rcases hc with (hc | hc) | hc
  · exact h c hc.1
  · have := (mem_cells hc).2
    omega
  · exact h c hc.1

theorem lookup_filter (p : Nat → Bool) (m : Buffer) (x : Nat) :
    List.lookup x (m.filter fun c => p c.1) = if p x then List.lookup x m else none := by
  induction m with
  | nil => simp
  | cons c m ih =>
    obtain ⟨y, b⟩ := c
    by_cases hxy : x = y
    · subst hxy
      cases hp : p x <;> simp [hp, ih]
    · have hne : (x == y) = false := by simpa using hxy
      cases hp : p y <;> simp [hp, ih, List.lookup_cons, hne]

theorem byteAt_cells (a : Nat) (bs : Bytes) (x : Nat) :
    Buffer.byteAt (Buffer.cells a bs) x = if a ≤ x then bs[x - a]? else none := by
  induction bs generalizing a with
  | nil => simp [Buffer.cells, Buffer.byteAt]
  | cons b bs ih =>
    have ih := ih (a + 1)
    simp only [Buffer.byteAt] at ih
    simp only [Buffer.cells, Buffer.byteAt, List.lookup_cons, ih]
    by_cases hx : x = a
    · simp [hx]
    · rw [show (x == a) = false by simpa using hx]
      by_cases hle : a ≤ x
      · rw [if_pos (by omega), if_pos hle, show x - a = (x - (a + 1)) + 1 by omega, List.getElem?_cons_succ]
      · rw [if_neg (by omega), if_neg hle]

/-- Read after store (R12's MemRead and MemWrite). -/
theorem byteAt_store (m : Buffer) (a : Nat) (bs : Bytes) (x : Nat) :
    Buffer.byteAt (Buffer.store m a bs) x =
      if a ≤ x ∧ x < a + bs.length then bs[x - a]? else Buffer.byteAt m x := by
  have hc := byteAt_cells a bs x
  simp only [Buffer.byteAt] at hc
  simp only [Buffer.byteAt, Buffer.store, List.lookup_append, hc, lookup_filter (fun y => decide (y < a)),
    lookup_filter (fun y => decide (a + bs.length ≤ y)), decide_eq_true_eq]
  by_cases h1 : x < a
  · simp [h1, show ¬ a ≤ x by omega, show ¬ a + bs.length ≤ x by omega]
  · by_cases h2 : x < a + bs.length
    · have hlt : x - a < bs.length := by omega
      simp [h1, h2, show a ≤ x by omega, hlt]
    · have hge : bs.length ≤ x - a := by omega
      simp [h1, h2, show a ≤ x by omega, show a + bs.length ≤ x by omega, hge]

/-- Every byte outside the stored range reads as before. -/
theorem byteAt_store_of_outside {m : Buffer} {a x : Nat} {bs : Bytes} (h : x < a ∨ a + bs.length ≤ x) :
    Buffer.byteAt (Buffer.store m a bs) x = Buffer.byteAt m x := by
  rw [byteAt_store, if_neg (by omega)]

/-- Byte k of a stored string reads back at a + k. -/
theorem byteAt_store_inside (m : Buffer) (a : Nat) {bs : Bytes} {k : Nat} (h : k < bs.length) :
    Buffer.byteAt (Buffer.store m a bs) (a + k) = some bs[k] := by
  rw [byteAt_store, if_pos (by omega)]
  simp [h]

end Sys2Proof.Machine
end

