-- ==== Sys2Proof/Laws/PerInstr.lean ====
section
/-! SUPPORT. Statements about every command as a CMD word, one lemma per constructor. -/

namespace Sys2Proof.Laws

/-- A command's CMD word is one of 30_encoding.md R92's: RSVD is 0 and OPCODE is 1 to 4 (R91, R97). -/
def LegalWord.Statement (i : Instr) : Prop := i.wellFormed = true ∧ wellFormedWord (encode i) = true

theorem LegalWord.configure : LegalWord.Statement .configure := ⟨rfl, by decide⟩
theorem LegalWord.programPage : LegalWord.Statement .programPage := ⟨rfl, by decide⟩
theorem LegalWord.programChunk : LegalWord.Statement .programChunk := ⟨rfl, by decide⟩
theorem LegalWord.encode : LegalWord.Statement .encode := ⟨rfl, by decide⟩

end Sys2Proof.Laws
end

