-- ==== Sys2Proof/Machine/HostProgram.lean ====
section
/-! DEFINITION. The host's notation (30_encoding.md R98), its pseudo-instructions (R99), the boot order
(70_reset_and_hazards.md R252) and the streaming protocol (42_page.md R193), as lists of accesses. They describe the
host, not PF: no step of PF reads them. -/

namespace Sys2Proof.Machine

/-- A statement of a host program (R98, R99). -/
inductive Statement where
  /-- `wr NAME, v`. -/
  | wr (r : Reg) (v : Word)
  /-- `rd NAME`. -/
  | rd (r : Reg)
  /-- `wrin a, b0 b1 ...`. -/
  | wrin (a : Nat) (bs : Bytes)
  /-- `fillin a, n, v`. -/
  | fillin (a n : Nat) (v : Byte)
  /-- `rdout a, n`. -/
  | rdout (a n : Nat)
  /-- `cmd OP`. -/
  | cmd (i : Instr)
  /-- `configure P, O, K, W`. -/
  | configure (pageSize oobSize : Word) (kind : BitVec 4) (wide : Bool)
  /-- `program_page n`. -/
  | programPage (n : Word)
  /-- `program_chunk n`. -/
  | programChunk (n : Word)
  /-- `encode n`. -/
  | encode (n : Word)
  deriving DecidableEq, Repr

/-- A 32-bit write of a register. -/
def regWrite (r : Reg) (v : Word) : Access := .write (.offset .reg r.offset) 32 v

/-- A 32-bit read of a register. -/
def regRead (r : Reg) : Access := .read (.offset .reg r.offset) 32

/-- Byte writes of a string from IN offset a on. -/
def inWrites (a : Nat) : Bytes → List Access
  | [] => []
  | b :: bs => .write (.offset .inBuf a) 8 (b.setWidth 32) :: inWrites (a + 1) bs

/-- The ECC_CFG value `(W << 8) | K` of `configure` (R99). -/
def eccCfgValue (kind : BitVec 4) (wide : Bool) : Word :=
  ((BitVec.ofBool wide).setWidth 32 <<< 8) ||| kind.setWidth 32

/-- The bus accesses of a statement (R98, R99). -/
def Statement.accesses (x : Statement) : List Access :=
  match x with
  | .wr r v => [regWrite r v]
  | .rd r => [regRead r]
  | .wrin a bs => inWrites a bs
  | .fillin a n v => inWrites a (rep n v)
  | .rdout a n => (List.range n).map fun k => .read (.offset .outBuf (a + k)) 8
  | .cmd i => [regWrite .cmd (Sys2Proof.encode i)]
  | .configure p o k w =>
    [regWrite .pageSize p, regWrite .oobSize o, regWrite .eccCfg (eccCfgValue k w),
      regWrite .cmd (Sys2Proof.encode .configure)]
  | .programPage n => [regWrite .inLen n, regWrite .cmd (Sys2Proof.encode .programPage)]
  | .programChunk n => [regWrite .inLen n, regWrite .cmd (Sys2Proof.encode .programChunk)]
  | .encode n => [regWrite .inLen n, regWrite .cmd (Sys2Proof.encode .encode)]

/-- The accesses of a host program, in program order (R98, 20_memory.md R72). -/
def hostProgram (xs : List Statement) : List Access := xs.flatMap Statement.accesses

/-- The boot order of R252: configure, then read STATUS. -/
def bootProgram (pageSize oobSize : Word) (kind : BitVec 4) (wide : Bool) : List Statement :=
  [.configure pageSize oobSize kind wide, .rd .status]

/-- The blocks of an image: page_size bytes each, the last one short if the image ends in it (R193). -/
def imageBlocks (pageSize : Nat) (image : Bytes) : List Bytes :=
  (List.range (ceilDiv image.length pageSize)).map fun k => slice image (k * pageSize) ((k + 1) * pageSize)

/-- The page loop of R252 for one block: its bytes and length, PROGRAM_PAGE, STATUS, the result. -/
def pageProgramOf (pageSize oobSize : Nat) (block : Bytes) : List Statement :=
  [.wrin 0 block, .programPage (BitVec.ofNat 32 block.length), .rd .status, .rdout 0 (pageSize + oobSize)]

/-- The streaming protocol of R193: one PROGRAM_PAGE per block, none for an empty final block. -/
def streamProgram (pageSize oobSize : Nat) (image : Bytes) : List Statement :=
  (imageBlocks pageSize image).flatMap (pageProgramOf pageSize oobSize)

end Sys2Proof.Machine
end

