-- ==== Sys2Proof/Tests/Slice0.lean ====
section
/-! SUPPORT. Checks of the model against the spec's encodings and against the vectors of 95_test_vectors.md, whose
names the comments give. No expected value here was taken from the model. -/

namespace Sys2Proof.Tests

open Sys2Proof Sys2Proof.Machine

/-! ### Well-formedness: an ill-formed term for each check -/

theorem test_rsvd_refused : rsvdClear 0x00000011 = false ∧ rsvdClear 0x80000002 = false ∧ rsvdClear 0x00000002 = true := by
  decide

theorem test_opcode_refused :
    opcodeAssigned 0x00000000 = false ∧ opcodeAssigned 0x00000005 = false ∧ opcodeAssigned 0x0000000F = false ∧
      opcodeAssigned 0x00000004 = true := by decide

theorem test_word_refused : wellFormedWord 0x00000012 = false ∧ wellFormedWord 0x00000006 = false ∧
    wellFormedWord 0x00000003 = true := by decide

theorem test_every_command_well_formed (i : Instr) : i.wellFormed = true := by cases i <;> rfl

theorem test_buffer_not_canonical :
    Buffer.wf [(2, 0), (1, 0)] = false ∧ Buffer.wf [(1, 0), (1, 7)] = false ∧ Buffer.wf [(0, 9), (4, 9)] = true := by
  decide

theorem test_buffer_not_within : Buffer.within 4 [(0, 0), (4, 0)] = false ∧ Buffer.within 5 [(0, 0), (4, 0)] = true := by
  decide

/-! ### Encodings: words written out from 30_encoding.md R91 and R92 -/

theorem test_decode_configure : decode 0b00000000000000000000000000000001 = .ok .configure := by decide
theorem test_decode_programPage : decode 0b00000000000000000000000000000010 = .ok .programPage := by decide
theorem test_decode_programChunk : decode 0b00000000000000000000000000000011 = .ok .programChunk := by decide
theorem test_decode_encode : decode 0b00000000000000000000000000000100 = .ok .encode := by decide
/-- V-CMD-2, V-CMD-3. -/
theorem test_decode_unassigned : decode 0x00000000 = .error .unassignedOpcode ∧
    decode 0x00000005 = .error .unassignedOpcode := by decide
/-- V-CMD-4, V-CMD-5. -/
theorem test_decode_reserved : decode 0x00000011 = .error .reservedBits ∧ decode 0x80000002 = .error .reservedBits := by
  decide
theorem test_decode_table_word : decodeTableWord 32 3 = some .programChunk ∧ decodeTableWord 32 16 = none ∧
    decodeTableWord 8 4 = some .encode ∧ decodeTableWord 64 4 = none := by decide
/-- The order of R94. -/
theorem test_kinds : (kindOf 0, kindOf 1, kindOf 2, kindOf 3, kindOf 4, kindOf 15) =
    (some .rs, some .rsSbl, some .bch4, some .bch8, none, none) := by decide
/-- R99's `(W << 8) | K`, and P-3 step 3: 0x0000_0101. -/
theorem test_pseudo_configure : Statement.accesses (.configure 2048 128 1 true) =
    [.write (.offset .reg 0x08) 32 0x00000800, .write (.offset .reg 0x0C) 32 0x00000080,
     .write (.offset .reg 0x10) 32 0x00000101, .write (.offset .reg 0x00) 32 0x00000001] := by decide
/-- P-1 step 6. -/
theorem test_pseudo_program_page : Statement.accesses (.programPage 2048) =
    [.write (.offset .reg 0x14) 32 0x00000800, .write (.offset .reg 0x00) 32 0x00000002] := by decide
/-- R193: blocks of page_size bytes, the last one short, none for an empty final block. -/
theorem test_image_blocks : imageBlocks 2 [1, 2, 3] = [[1, 2], [3]] ∧ imageBlocks 2 [1, 2] = [[1, 2]] := by decide

/-! ### GF(2^10), packing and RS_ENCODE -/

/-- V-GF-1 to V-GF-4. -/
theorem test_gfmul : (gfmul 0x200 0x002, gfmul 0x123 0x001, gfmul 0x3FF 0x3FF, gfmul 0x155 0x2AA) =
    (0x009, 0x123, 0x2BA, 0x2E3) := by decide
/-- V-GF-6. -/
theorem test_alpha : (alphaPow 8, alphaPow 9, alphaPow 10, alphaPow 11, alphaPow 12) =
    (0x100, 0x200, 0x009, 0x012, 0x024) := by decide
/-- V-PK-1, V-PK-2. -/
theorem test_pack_ends : pack10 [0x3FF, 0, 0, 0, 0, 0, 0, 0] = [0xFF, 0xC0, 0, 0, 0, 0, 0, 0, 0, 0] ∧
    pack10 [0, 0, 0, 0, 0, 0, 0, 0x3FF] = [0, 0, 0, 0, 0, 0, 0, 0, 0x03, 0xFF] := by decide
/-- V-PK-3. -/
theorem test_pack_order :
    pack10 [1, 2, 3, 4, 5, 6, 7, 8] = [0x00, 0x40, 0x20, 0x0C, 0x04, 0x01, 0x40, 0x60, 0x1C, 0x08] := by decide
/-- V-RS-3. -/
theorem test_rs_one : rsEncode [0x01] = .ok [0x7F, 0x83, 0x35, 0x0E, 0x97, 0xE8, 0x03, 0xA9, 0x2F, 0x44] := by
  rw [rsEncode_ok (by decide)]
  decide +kernel
/-- V-RS-16. -/
theorem test_rs_four_bytes :
    rsEncode [0x01, 0x02, 0x03, 0x04] = .ok [0x74, 0x04, 0xCA, 0x1A, 0xC6, 0xF2, 0xDC, 0x4F, 0x52, 0x56] := by
  rw [rsEncode_ok (by decide)]
  decide +kernel
/-- V-RS-8. -/
theorem test_rs_mixed : rsEncode (rep 500 0x00 ++ rep 16 0xFF) =
    .ok [0x6D, 0x10, 0x86, 0xC9, 0xE9, 0x3F, 0xE5, 0x4E, 0x16, 0x35] := by
  rw [rsEncode_ok (by simp), toSymbols, List.map_append, rep, rep, List.map_replicate,
    show BitVec.setWidth 10 (0x00 : Byte) = 0 from rfl, rsRemainder_leading_zeros]
  decide +kernel
/-- The remainder of zero symbols is zero (V-RS-2). -/
theorem rs_zeros (n : Nat) (h : n ≤ 1015) : rsEncode (rep n 0x00) = .ok (rep 10 0x00) := by
  have hz := rsRemainder_leading_zeros n []
  rw [List.append_nil] at hz
  rw [rsEncode_ok (by simpa using h), toSymbols, rep, List.map_replicate]
  change Except.ok (pack10 (rsRemainder (List.replicate n 0))) = _
  rw [hz]
  decide
/-- V-RS-1, V-RS-2 and V-RS-22. -/
theorem test_rs_lengths : rsEncode [] = .ok (rep 10 0x00) ∧ rsEncode (rep 1015 0x00) = .ok (rep 10 0x00) ∧
    ∀ d : Bytes, d.length = 1016 → rsEncode d = .error .oversizeRs :=
  ⟨rs_zeros 0 (by decide), rs_zeros 1015 (by decide), fun d h => rsEncode_error (by omega)⟩

/-! ### Geometry, chunk and page -/

/-- What the vectors of CONFIGURE give: du, oob_per_chunk, bbm, parity, bbm_offset, chunks_needed, required. -/
def geometryOf (a : Act) : List Nat := [a.du, a.opc, a.bbm, a.parity, a.bbmOffset, a.chunksNeeded, a.required]
/-- V-CF-1, V-CF-3. -/
theorem test_geometry_bch : geometryOf (buildAct 2048 64 .bch4 false) = [516, 12, 1, 7, 464, 4, 2112] ∧
    geometryOf (buildAct 2048 80 .bch8 false) = [516, 16, 1, 13, 452, 4, 2128] := by decide
/-- V-CF-8, V-CF-15. -/
theorem test_geometry_rs : geometryOf (buildAct 2048 128 .rsSbl true) = [512, 16, 2, 10, 464, 4, 2112] ∧
    geometryOf (buildAct 520 536 .rs false) = [516, 12, 1, 10, 520, 2, 1056] := by decide
/-- V-CF-17, V-CF-18: the budget met exactly, and missed by one byte. -/
theorem test_budget_edge : (checkAct (buildAct 1 527 .bch4 false)).toBool = true ∧
    checkAct (buildAct 1 526 .bch4 false) = .error .cfgOobBudget := by decide
/-- V-CF-23, V-CF-26: zero sizes come first. -/
theorem test_zero_size_first : configureAct 0 64 5 false = .error .cfgZeroSize ∧
    configureAct 4097 0 9 false = .error .cfgZeroSize := ⟨rfl, rfl⟩
/-- V-CF-24: the kind before the budget. -/
theorem test_kind_before_budget : configureAct 2048 16 7 false = .error .cfgKind := by
  have := maxPageSize_ge
  have := maxOobSize_ge
  unfold configureAct
  rw [if_neg (by omega), if_neg (by omega)]
  rfl
/-- V-CF-25: 4097 with MAX_PAGE_SIZE = 4096. -/
theorem test_capacity (h : maxPageSize = 4096) : configureAct 4097 64 2 false = .error .cfgCapacity := by
  unfold configureAct
  rw [if_neg (by omega), if_pos (by omega)]
/-- V-CF-10, at capacities that allow it. -/
theorem test_large_page (hp : 4096 ≤ maxPageSize) (ho : 224 ≤ maxOobSize) :
    configureAct 4096 224 3 true = .ok (buildAct 4096 224 .bch8 true) := by
  unfold configureAct
  rw [if_neg (by omega), if_neg (by omega)]
  rfl
/-- The chunk of 516 zero bytes, for any RS configuration. -/
theorem chunk_zeros {a : Act} (hd : a.du = 516) (hc : a.codec = .reedSolomon) :
    chunkProgram a (rep 516 0x00) = .ok (layChunk a (rep 516 0x00) (rep 10 0x00)) := by
  have hp : paddedUnit a (rep 516 0x00) = rep 516 0x00 := by
    rw [paddedUnit, padRight, rep_length, hd]
    exact List.append_nil _
  have he : codecEncode a.codec (paddedUnit a (rep 516 0x00)) = .ok (rep 10 0x00) := by
    rw [hp, hc]
    exact rs_zeros 516 (by omega)
  exact (chunkProgram_ok_iff _ _ _).mpr ⟨by simp [hd], rep 10 0x00, he, by rw [hp]⟩
/-- V-CH-3: 464 data bytes, BBM, 52 data bytes, parity, filler. -/
theorem test_chunk_zeros : chunkProgram (buildAct 2048 64 .rs false) (rep 516 0x00) =
    .ok (rep 464 0x00 ++ [0xFF] ++ rep 52 0x00 ++ rep 10 0x00 ++ [0xFF]) := by
  rw [chunk_zeros rfl rfl]
  decide +kernel
/-- V-CH-4: the clamp, bbm_offset 520 > du. -/
theorem test_chunk_clamped : chunkProgram (buildAct 520 536 .rs false) (rep 516 0x00) =
    .ok (rep 516 0x00 ++ [0xFF] ++ rep 10 0x00 ++ [0xFF]) := by
  rw [chunk_zeros rfl rfl]
  decide +kernel
/-- V-CH-12's runs for any parity p: padding 0xFF, e = 452, filler 2. -/
theorem test_chunk_bch8 (p : Bytes) : layChunk (buildAct 2048 80 .bch8 false) (rep 516 0xFF) p =
    rep 517 0xFF ++ p ++ rep 2 0xFF := by
  have join (m n : Nat) : rep m 0xFF ++ rep n 0xFF = rep (m + n) 0xFF := List.replicate_append_replicate
  have cut (i j : Nat) : slice (rep 516 0xFF) i j = rep (min j 516 - i) 0xFF := by
    rw [slice, rep, List.take_replicate, List.drop_replicate, rep]
  rw [layChunk, cut, cut, erased, join, join]
  rfl
/-- V-PG-6's slices: 516 and 4 bytes. -/
theorem test_slices : (pageSlice (buildAct 520 536 .rs false) (rep 520 0x00) 0).length = 516 ∧
    (pageSlice (buildAct 520 536 .rs false) (rep 520 0x00) 1).length = 4 := by
  simp [pageSlice, buildAct, EccKind.dataUnit]

/-! ### Registers, STATUS and single steps -/

/-- V-CMD-12: bits 7:4 dropped. -/
theorem test_ecc_cfg_reserved : readReg .eccCfg (storeReg .eccCfg 0x000001F3 State.reset) = 0x00000103 := by decide
/-- V-CF-22's read back. -/
theorem test_ecc_cfg_ones : readReg .eccCfg (storeReg .eccCfg 0xFFFFFFFF State.reset) = 0x0000010F := by decide
/-- V-CMD-11. -/
theorem test_read_only : storeReg .status 0xFFFFFFFF State.reset = State.reset ∧
    storeReg .outLen 5 State.reset = State.reset ∧ storeReg .required 1 State.reset = State.reset := by decide
/-- V-CMD-15's STATUS for E_OVERSIZE_PAGE, 0x0002_0805 (V-PG-9). -/
theorem test_status_error : readReg .status { State.reset with
    act := some (buildAct 2048 64 .rs false), err := some ⟨.oversizePage, 2⟩ } = 0x00020805 := by decide
/-- R69: little-endian lanes. -/
theorem test_byte_lanes : (byteLane 0x12345678 0, byteLane 0x12345678 3) = (0x78, 0x12) := by decide
/-- A read after a write of IN, and the byte beside it still undefined. -/
theorem test_in_byte : Buffer.byteAt (writeInByte 3 0x5A State.reset).inBuf 3 = some 0x5A ∧
    Buffer.byteAt (writeInByte 3 0x5A State.reset).inBuf 4 = none := by decide
/-- P-1 step 2 and V-CH-14, V-EN-9: a data command as the first access after reset. -/
theorem test_unconfigured :
    (match step (State.reset.withFetchWord 32 2) with | .next t => readReg .status t | _ => 0) = 0x00020704 ∧
    (match step (State.reset.withFetchWord 32 3) with | .next t => readReg .status t | _ => 0) = 0x00030704 ∧
    (match step (State.reset.withFetchWord 32 4) with | .next t => readReg .status t | _ => 0) = 0x00040704 := by
  decide
/-- V-CMD-4: ERR_OP is w[3:0] although RSVD ≠ 0. -/
theorem test_illegal_command :
    (match step (State.reset.withFetchWord 32 0x11) with | .next t => readReg .status t | _ => 0) = 0x00010104 := by
  decide
/-- V-CMD-8: dropped in the error state, the first error kept. -/
theorem test_dropped : (match issueCommand 7 { State.reset with err := some ⟨.illegalCmd, 5⟩ } with
    | .next t => readReg .status t | _ => 0) = 0x00050104 := by decide
/-- P-1 step 3: CONFIGURE straight after reset. -/
theorem test_configure_default : step (State.reset.withFetchWord 32 1) =
    .next { State.reset with act := some (buildAct 2048 64 .bch4 false), outValid := true } := by
  have := maxPageSize_ge
  have := maxOobSize_ge
  have hc : configureAct 2048 64 2 false = .ok (buildAct 2048 64 .bch4 false) := by
    unfold configureAct
    rw [if_neg (by omega), if_neg (by omega)]
    rfl
  rw [step_withFetchWord]
  change Host.Outcome.next (configureCommand State.reset) = _
  rw [configureCommand, show configureAct State.reset.pageSize.toNat State.reset.oobSize.toNat State.reset.eccKind
    State.reset.wideBus = .ok (buildAct 2048 64 .bch4 false) from hc]
  rfl
/-- V-CMD-14: a CONFIGURE that fails from a configured state. -/
theorem test_configure_fails : (match exec .configure { State.reset with
      pageSize := 0, act := some (buildAct 2048 64 .rs false), outValid := true } with
    | .next t => (readReg .status t, readReg .required t, t.outLen) | _ => (0, 1, 1)) = (0x00010204, 0, 0) := by decide
/-- PF configured for RS with the one input byte 0x01. -/
def oneByte : State := { State.reset with
  act := some (buildAct 2048 64 .rs false), inBuf := [(0, 0x01)], inLen := 1 }
/-- V-EN-1: the whole ENCODE of one byte. -/
theorem test_encode_one : exec .encode oneByte =
    .next { oneByte with
      outLen := 10, outValid := true, freeCount := 1
      outBuf := [(0, 0x7F), (1, 0x83), (2, 0x35), (3, 0x0E), (4, 0x97), (5, 0xE8), (6, 0x03), (7, 0xA9), (8, 0x2F),
        (9, 0x44)] } := by
  have hb := inBufBytes_ge
  have h1 : oneByte.inLen.toNat ≤ inBufBytes := le_trans (by decide) hb
  change Host.Outcome.next (dataCommand encodeCommand oneByte) = _
  rw [dataCommand_ok (s := oneByte) (a := buildAct 2048 64 .rs false)
    (r := [0x7F, 0x83, 0x35, 0x0E, 0x97, 0xE8, 0x03, 0xA9, 0x2F, 0x44]) rfl rfl (by decide) h1 test_rs_one]
  rfl
/-- V-CMD-16. -/
theorem test_refused_accesses :
    hostAccess (.read (.offset .reg 0x40) 32) State.reset = .fault .regReserved ∧
    hostAccess (.read (.offset .reg 0x04) 16) State.reset = .fault .regWidth ∧
    hostAccess (.write (.offset .reg 0x06) 32 0) State.reset = .fault .regMisaligned ∧
    hostAccess (.read (.offset .reg 0x100) 32) State.reset = .fault .regRange := ⟨rfl, rfl, rfl, rfl⟩

end Sys2Proof.Tests
end

