-- ==== Sys2Proof/Tests/Witnesses.lean ====
section
/-! SUPPORT. For every obligation with hypotheses, a concrete state and operands that meet all of them together; for
one with several clauses, a witness for each at the boundary of its range. -/

namespace Sys2Proof.Tests

open Sys2Proof Sys2Proof.Machine

/-! ### The configurations used: all legal whatever the open capacities are -/

/-- 2048 and 64 bytes, RS: the largest configuration every capacity allows. -/
def rsAct : Act := buildAct 2048 64 .rs false
/-- One chunk with bbm_offset = du (V-CF-13). -/
def sblAct : Act := buildAct 512 16 .rsSbl false
/-- One BCH4 chunk, wide bus. -/
def bch4Act : Act := buildAct 516 12 .bch4 true
/-- One BCH8 chunk, the budget met exactly. -/
def bch8Act : Act := buildAct 516 16 .bch8 false

theorem rsAct_legal : rsAct.Legal :=
  buildAct_legal (by decide) (by decide) maxPageSize_ge maxOobSize_ge (by decide)
theorem sblAct_legal : sblAct.Legal :=
  buildAct_legal (by decide) (by decide) (le_trans (by decide) maxPageSize_ge) (le_trans (by decide) maxOobSize_ge)
    (by decide)
theorem bch4Act_legal : bch4Act.Legal :=
  buildAct_legal (by decide) (by decide) (le_trans (by decide) maxPageSize_ge) (le_trans (by decide) maxOobSize_ge)
    (by decide)
theorem bch8Act_legal : bch8Act.Legal :=
  buildAct_legal (by decide) (by decide) (le_trans (by decide) maxPageSize_ge) (le_trans (by decide) maxOobSize_ge)
    (by decide)

/-- A configured PF with one input byte. -/
def ready (a : Act) : State := { State.reset with act := some a, inBuf := [(0, 0x01)], inLen := 1 }

/-- PF after an error. -/
def failed : State := { State.reset with err := some ⟨.illegalCmd, 5⟩ }

/-- PF with these accesses to come. -/
def facing (xs : List Access) : State := { State.reset with pending := xs }

theorem ready_input (a : Act) : InputIs (ready a) [0x01] := by
  refine ⟨rfl, fun k hk => ?_⟩
  have : k = 0 := by simpa using hk
  subst this
  rfl

theorem ready_legal {a : Act} (h : a.Legal) : ∀ b, (ready a).act = some b → b.Legal := fun b hb => by
  cases hb
  exact h

theorem reset_legal : ∀ b, State.reset.act = some b → b.Legal := fun b hb => by cases hb

theorem reset_inv : State.reset.Inv := by
  constructor <;> simp [State.reset, Buffer.wf, Buffer.risingFrom, Buffer.within]

theorem chunk_answers {a : Act} (h : a.Legal) {u : Bytes} (hu : u.length ≤ a.du) :
    ∃ chunk, chunkProgram a u = .ok chunk := by
  have hd := legal_du_cases h
  have hm := maxInput_ge a.codec
  have hl : (paddedUnit a u).length = a.du := by simp [paddedUnit]; omega
  obtain ⟨p, hp, -⟩ := codecEncode_ok (c := a.codec) (data := paddedUnit a u) (by omega)
  exact ⟨_, (chunkProgram_ok_iff _ _ _).mpr ⟨hu, p, hp, rfl⟩⟩

theorem one_chunk_page_answers : ∃ r, pageProgram sblAct [] = .ok r := by
  obtain ⟨c, hc⟩ := chunk_answers sblAct_legal (u := pageSlice sblAct (paddedPage sblAct []) 0)
    (by simp [pageSlice, sblAct, buildAct, EccKind.dataUnit])
  have : pageChunks sblAct (paddedPage sblAct []) sblAct.chunksNeeded = .ok ([] ++ c) := by
    change pageChunks sblAct _ (0 + 1) = _
    simp only [pageChunks, hc]
  exact ⟨_, by rw [pageProgram, if_neg (by decide), this]⟩

/-! ### Dispatch -/

theorem witness_StepRunsDecodedCommand :
    (facing [cmdWrite 2]).pending = cmdWrite 2 :: [] ∧ decode 2 = .ok .programPage := by decide
theorem witness_DispatchOfEveryCmdWrite :
    ((facing [cmdWrite 4]).pending = .write (.offset .reg 0) 32 4 :: [] ∧
      resolve (.offset .reg 0) = .ok (.reg, 0)) ∧
    -- dropped: legal and illegal words in the error state
    (failed.err ≠ none ∧ decode 4 ≠ .ok .configure ∧ decode 7 ≠ .ok .configure) ∧
    -- run: no error, or CONFIGURE in the error state
    (State.reset.err = none ∧ decode 1 = .ok .configure) ∧
    -- ILLEGAL
    (∃ e, decode 0 = .error e) ∧ ∃ e, decode 16 = .error e := by
  refine ⟨⟨rfl, rfl⟩, by decide, by decide, ⟨.unassignedOpcode, by decide⟩, ⟨.reservedBits, by decide⟩⟩
theorem witness_IdleStepHoldsState : State.reset.pending = [] := rfl

/-! ### CONFIGURE -/

/-- PF about to configure these sizes and kind. -/
def asking (p o : Word) (k : BitVec 4) : State := { State.reset with pageSize := p, oobSize := o, eccKind := k }
/-- The hypotheses of ConfigureLatchesTheGeometry. -/
def LatchPremises (s : State) (kind : EccKind) (codec : Codec) (du opc parity : Nat) : Prop :=
  (s.eccKind, kind, codec, du, opc, parity) ∈ kindTable ∧ 0 < s.pageSize.toNat ∧ 0 < s.oobSize.toNat ∧
    s.pageSize.toNat ≤ maxPageSize ∧ s.oobSize.toNat ≤ maxOobSize ∧
    (s.pageSize.toNat + du - 1) / du * (du + opc) ≤ s.pageSize.toNat + s.oobSize.toNat
/-- Every row of the table, the budget met exactly (528, 528, 2112 and 532 bytes). -/
theorem witness_ConfigureLatchesTheGeometry :
    LatchPremises (asking 516 12 0) .rs .reedSolomon 516 12 10 ∧
    LatchPremises (asking 512 16 1) .rsSbl .reedSolomon 512 16 10 ∧
    LatchPremises State.reset .bch4 (.bch .four) 516 12 7 ∧
    LatchPremises (asking 516 16 3) .bch8 (.bch .eight) 516 16 13 := by
  have hp := maxPageSize_ge
  have ho := maxOobSize_ge
  refine ⟨⟨by decide, by decide, by decide, le_trans (by decide) hp, le_trans (by decide) ho, by decide⟩,
    ⟨by decide, by decide, by decide, le_trans (by decide) hp, le_trans (by decide) ho, by decide⟩,
    ⟨by decide, by decide, by decide, hp, ho, by decide⟩,
    ⟨by decide, by decide, by decide, le_trans (by decide) hp, le_trans (by decide) ho, by decide⟩⟩
theorem witness_FailedConfigureLeavesNoInstance :
    (∃ t, exec .configure { State.reset with pageSize := 0 } = .next t ∧ t.err ≠ none) ∧
    ∃ t, (State.reset.withFetchWord 32 1).act = none ∧ step (State.reset.withFetchWord 32 1) = .next t ∧
      t.act ≠ none :=
  ⟨⟨_, rfl, by decide⟩, _, rfl, test_configure_default, by decide⟩
theorem witness_ConfigureFrame : ∃ t, exec .configure (ready rsAct) = .next t := ⟨_, rfl⟩
theorem witness_DefaultGeometryAfterReset :
    Instr.encode ≠ .configure ∧ State.reset.act = none ∧ State.reset.err = none := by decide
/-- An ACT that breaks the invariant, and a command that runs. -/
theorem witness_GeometryErrorIsUnreachable :
    ({ rsAct with opc := 10 } : Act).opc < ({ rsAct with opc := 10 } : Act).bbm + ({ rsAct with opc := 10 } : Act).parity ∧
    ∃ t, (ready rsAct).err = none ∧ exec .programPage (ready rsAct) = .next t := ⟨by decide, _, rfl, rfl⟩
/-- One byte above the Reed-Solomon limit. -/
theorem witness_CodecEncodeIsItsVariant : 1015 < (rep 1016 0x00).length := by simp
theorem witness_ParitySizes : ∃ p, codecEncode .reedSolomon [0x01] = .ok p := ⟨_, test_rs_one⟩

/-! ### The data commands -/

theorem witness_DataCommandsComplete :
    (ready rsAct).err = none ∧ (ready rsAct).act = some rsAct ∧ rsAct.Legal ∧ (ready rsAct).inLen.toNat ≤ inBufBytes ∧
    (ready rsAct).inLen.toNat ≤ rsAct.pageSize ∧ (ready rsAct).inLen.toNat ≤ rsAct.du ∧
    (ready rsAct).inLen.toNat ≤ rsAct.codec.maxInput :=
  ⟨rfl, rfl, rsAct_legal, le_trans (by decide) inBufBytes_ge, by decide, by decide, by decide⟩
/-- The same with no IN byte written: the whole input is a free value. -/
theorem witness_DataCommandsComplete_unwritten :
    ({ ready rsAct with inBuf := [] } : State).err = none ∧
    ({ ready rsAct with inBuf := [] } : State).inLen.toNat ≤ rsAct.du := ⟨rfl, by decide⟩
theorem witness_EncodeResult :
    (ready bch8Act).err = none ∧ (ready bch8Act).act = some bch8Act ∧ bch8Act.Legal ∧ InputIs (ready bch8Act) [0x01] ∧
    [(0x01 : Byte)].length ≤ inBufBytes ∧ [(0x01 : Byte)].length ≤ bch8Act.codec.maxInput :=
  ⟨rfl, rfl, bch8Act_legal, ready_input _, le_trans (by decide) inBufBytes_ge,
    le_trans (by decide) (maxInput_ge bch8Act.codec)⟩
theorem witness_ProgramChunkResult :
    (ready rsAct).err = none ∧ (ready rsAct).act = some rsAct ∧ rsAct.Legal ∧ InputIs (ready rsAct) [0x01] ∧
    [(0x01 : Byte)].length ≤ rsAct.du :=
  ⟨rfl, rfl, rsAct_legal, ready_input _, by decide⟩
theorem witness_ProgramPageResult :
    (ready bch4Act).err = none ∧ (ready bch4Act).act = some bch4Act ∧ bch4Act.Legal ∧ InputIs (ready bch4Act) [0x01] ∧
    [(0x01 : Byte)].length ≤ bch4Act.pageSize :=
  ⟨rfl, rfl, bch4Act_legal, ready_input _, by decide⟩
/-- bbm_offset below du (464 < 516) and equal to du (512). -/
theorem witness_ChunkBytePositions :
    (rsAct.Legal ∧ rsAct.bbmOffset = 464 ∧ ∃ chunk, chunkProgram rsAct (rep 516 0xFF) = .ok chunk) ∧
    (sblAct.Legal ∧ sblAct.bbmOffset = sblAct.du ∧ ∃ chunk, chunkProgram sblAct [] = .ok chunk) :=
  ⟨⟨rsAct_legal, by decide, chunk_answers rsAct_legal (by simp [rsAct, buildAct, EccKind.dataUnit])⟩,
    sblAct_legal, by decide, chunk_answers sblAct_legal (by decide)⟩
theorem witness_PageBytePositions : sblAct.Legal ∧ (∃ r, pageProgram sblAct [] = .ok r) ∧ 0 < sblAct.chunksNeeded :=
  ⟨sblAct_legal, one_chunk_page_answers, by decide⟩
/-- The filler clause: a page with filler bytes after `required`. -/
theorem witness_PageBytePositions_filler :
    (buildAct 512 64 .rsSbl false).Legal ∧ (buildAct 512 64 .rsSbl false).required ≤ 528 ∧ 528 < 512 + 64 :=
  ⟨buildAct_legal (by decide) (by decide) (le_trans (by decide) maxPageSize_ge) maxOobSize_ge (by decide),
    by decide, by decide⟩
theorem witness_SlicesPartitionThePage :
    rsAct.Legal ∧ (rep 2048 0x00).length = rsAct.pageSize ∧ 0 + 1 < rsAct.chunksNeeded :=
  ⟨rsAct_legal, by simp [rsAct, buildAct], by decide⟩
theorem witness_InnerErrorsAreUnreachable :
    rsAct.Legal ∧ (rep 2048 0x00).length ≤ rsAct.pageSize ∧ (rep 516 0x00).length = rsAct.du :=
  ⟨rsAct_legal, by simp [rsAct, buildAct], by simp [rsAct, buildAct, EccKind.dataUnit]⟩
/-- Unconfigured, and a Reed-Solomon input one byte too long. -/
theorem witness_DataCommandErrorOrder :
    (State.reset.err = none ∧ ∀ a, State.reset.act = some a → a.Legal) ∧
    (({ ready rsAct with inLen := 1016 } : State).err = none ∧
      (∀ a, ({ ready rsAct with inLen := 1016 } : State).act = some a → a.Legal) ∧
      1015 < ({ ready rsAct with inLen := 1016 } : State).inLen.toNat) :=
  ⟨⟨rfl, reset_legal⟩, rfl, ready_legal rsAct_legal, by decide⟩
theorem witness_ErrorsLeaveNoPartialResult :
    ∃ t, State.reset.err = none ∧ exec .encode State.reset = .next t ∧ t.err ≠ none := ⟨_, rfl, rfl, by decide⟩
/-- A command that runs, and one that is dropped. -/
theorem witness_DataCommandFrame :
    (Instr.programChunk ≠ .configure ∧ (∀ a, (ready rsAct).act = some a → a.Legal) ∧
      ∃ t, exec .programChunk (ready rsAct) = .next t) ∧
    (failed.err ≠ none ∧ ∃ t, exec .programChunk failed = .next t ∧ t.outValid = false) :=
  ⟨⟨by decide, ready_legal rsAct_legal, _, rfl⟩, by decide, _, rfl, rfl⟩
theorem witness_InRangeOnlyFromBchEncode :
    (ready rsAct).err = none ∧ (∀ a, (ready rsAct).act = some a → a.Legal) ∧
    (∀ a, (ready rsAct).act = some a → a.codec = .reedSolomon) ∧ ∃ t, exec .encode (ready rsAct) = .next t :=
  ⟨rfl, ready_legal rsAct_legal, fun a ha => by cases ha; rfl, _, rfl⟩
/-- A command that runs on written bytes, and one that leaves no result. -/
theorem witness_DataCommandsIgnoreConfigRegisters :
    (Instr.programPage ≠ .configure ∧ (∃ t, exec .programPage (ready rsAct) = .next t) ∧
      ∀ x, x < (ready rsAct).inLen.toNat → (Buffer.byteAt (ready rsAct).inBuf x).isSome = true) ∧
    ∃ t, exec .programPage State.reset = .next t ∧ t.outValid = false := by
  refine ⟨⟨by decide, ⟨_, rfl⟩, fun x hx => ?_⟩, _, rfl, rfl⟩
  have : x = 0 := by have : x < 1 := hx; omega
  subst this
  rfl
/-- Two states that differ in IN beyond IN_LEN, OUT, and PAGE_SIZE. -/
theorem witness_EqualInputsGiveEqualResults :
    let s₂ : State := { ready rsAct with inBuf := [(0, 0x01), (7, 0x55)], outBuf := [(9, 0x99)], pageSize := 4096 }
    Instr.encode ≠ .configure ∧ rsAct.Legal ∧ (ready rsAct).act = some rsAct ∧ s₂.act = some rsAct ∧
    (ready rsAct).err = none ∧ s₂.err = none ∧ InputIs (ready rsAct) [0x01] ∧ InputIs s₂ [0x01] ∧
    (∃ t, exec .encode (ready rsAct) = .next t) ∧ ∃ t, exec .encode s₂ = .next t := by
  refine ⟨by decide, rsAct_legal, rfl, rfl, rfl, rfl, ready_input _, ⟨rfl, fun k hk => ?_⟩, ⟨_, rfl⟩, _, rfl⟩
  have : k = 0 := by simpa using hk
  subst this
  rfl
theorem witness_PaddingBytesOfPageAndChunk :
    [(0x01 : Byte)].length + 2047 ≤ rsAct.pageSize ∧ [(0x01 : Byte)].length + 515 ≤ rsAct.du := by decide

/-! ### Reed-Solomon -/

theorem witness_GfmulIsAFieldMultiplication : (0x001 : Sym) ≠ 0 := by decide
theorem witness_AlphaIsPrimitive : 0 < 1022 ∧ 1022 < 1023 := by decide
theorem witness_GeneratorHasItsRoots : 1 ≤ 8 ∧ 8 ≤ 8 := by decide
theorem witness_CodewordHasTheRoots : (rep 1015 0x00).length ≤ 1015 ∧ ([] : Bytes).length ≤ 1015 := by simp
theorem witness_RsEncodeIsLinear :
    ([0x01, 0x02] : Bytes).length = ([0x03, 0x04] : Bytes).length ∧ ([0x01, 0x02] : Bytes).length ≤ 1015 := by decide

/-! ### The whole machine -/

theorem witness_StepKeepsTheInvariant : State.reset.Inv ∧ step State.reset = .next State.reset := ⟨reset_inv, rfl⟩
theorem witness_ErrorStateEndsByConfigureOrReset :
    (failed.err = some ⟨.illegalCmd, 5⟩ ∧ failed.err ≠ none ∧ Instr.encode ≠ .configure) ∧
    ∃ t, nextAccess { failed with pending := [.reset] } = some .reset ∧
      step { failed with pending := [.reset] } = .next t := ⟨by decide, _, rfl, rfl⟩
theorem witness_InChangesOnlyByHostWrites :
    ∃ t, step (facing [.write (.offset .inBuf 0) 8 0x5A]) = .next t ∧
      Buffer.byteAt t.inBuf 0 ≠ Buffer.byteAt (facing [.write (.offset .inBuf 0) 8 0x5A]).inBuf 0 := by
  have := inBufBytes_ge
  refine ⟨writeInByte 0 ((0x5A : Word).setWidth 8) State.reset, ?_, by decide⟩
  change hostWrite .inBuf 8 0 0x5A State.reset = _
  simp [hostWrite, bufferTarget, show ¬ inBufBytes = 0 by omega]
theorem witness_ResultsChangeOnlyByCommands : ∃ t, step (facing [cmdWrite 2]) = .next t := ⟨_, rfl⟩
theorem witness_ReadsChangeNoState :
    ∃ t, (facing [.read (.offset .reg 0x04) 32]).pending = .read (.offset .reg 0x04) 32 :: [] ∧
      step (facing [.read (.offset .reg 0x04) 32]) = .next t := ⟨_, rfl, rfl⟩
theorem witness_ResetSetsEveryPiece : (facing [.reset]).pending = .reset :: [] := rfl

/-! ### Registers and buffers -/

/-- The first and the last register. -/
theorem witness_RegisterReadsFollowTheMap :
    (0x00, (0 : Word)) = (Reg.offset .cmd, readReg .cmd State.reset) ∧
    (0x38, codecWord State.reset) = (Reg.offset .codec, readReg .codec State.reset) ∧
    (facing [.read (.offset .reg 0x38) 32]).pending = .read (.offset .reg 0x38) 32 :: [] := by decide
/-- A stored, a masked and an ignored register. -/
theorem witness_RegisterWritesStoreOrAreIgnored :
    (Reg.inLen ≠ .cmd ∧ Reg.eccCfg ≠ .cmd ∧ Reg.required ≠ .cmd) ∧
    (facing [regWrite .required 1]).pending = .write (.offset .reg Reg.required.offset) 32 1 :: [] := by decide
/-- Each clause at its boundary: width 16, offset 2, offsets 0x3C and 0xFC, offset 0x100. -/
theorem witness_RefusedRegisterAccesses :
    (facing [.read (.offset .reg 0xFC) 32]).pending = .read (.offset .reg 0xFC) 32 :: [] ∧ 16 ≠ 32 ∧ 2 % 4 ≠ 0 ∧
    (0x3C % 4 = 0 ∧ 0x3C ≤ 0x3C) ∧ (0xFC % 4 = 0 ∧ 0xFC ≤ 0xFC) ∧ 0x100 % 4 = 0 ∧ 0x100 ≤ 0x100 := by decide
/-- Each clause at its boundary: width 16, the first offset beyond IN, offset 0 of both buffers. -/
theorem witness_BufferAccessRules :
    (Space.inBuf ≠ .reg ∧ 16 ≠ 8 ∧ Space.inBuf.bytes ≤ inBufBytes) ∧ 0 < outBufBytes ∧ 0 < inBufBytes ∧
    (facing [.read (.offset .inBuf 0) 8]).pending = .read (.offset .inBuf 0) 8 :: [] ∧
    (facing [.write (.offset .outBuf 0) 8 1]).pending = .write (.offset .outBuf 0) 8 1 :: [] :=
  ⟨⟨by decide, by decide, le_refl _⟩, lt_of_lt_of_le (by decide) outBufBytes_ge,
    lt_of_lt_of_le (by decide) inBufBytes_ge, rfl, rfl⟩
theorem witness_StatusFields : failed.err = some ⟨.illegalCmd, 5⟩ ∧ State.reset.err = none := ⟨rfl, rfl⟩
theorem witness_CodecFields :
    State.reset.act = none ∧ ((ready rsAct).act = some rsAct ∧ rsAct.codec = .reedSolomon) ∧
    ((ready bch4Act).act = some bch4Act ∧ bch4Act.codec = .bch .four) ∧
    ((ready bch8Act).act = some bch8Act ∧ bch8Act.codec = .bch .eight) := ⟨rfl, ⟨rfl, rfl⟩, ⟨rfl, rfl⟩, rfl, rfl⟩
theorem witness_GeometryRegistersShowAct :
    State.reset.act = none ∧ (ready bch8Act).act = some bch8Act ∧ bch8Act.Legal := ⟨rfl, rfl, bch8Act_legal⟩
/-- A command that completes, and one that raises an error. -/
theorem witness_OutLenFollowsTheCommand :
    ((∀ a, (ready rsAct).act = some a → a.Legal) ∧ (ready rsAct).err = none ∧
      ∃ t, exec .encode (ready rsAct) = .next t ∧ t.err = none) ∧
    ((∀ a, State.reset.act = some a → a.Legal) ∧ State.reset.err = none ∧
      ∃ t, exec .encode State.reset = .next t ∧ t.err ≠ none) :=
  ⟨⟨ready_legal rsAct_legal, rfl, _, test_encode_one, rfl⟩, reset_legal, rfl, _, rfl, by decide⟩
theorem witness_ValidResultIsDefined : State.reset.Inv := reset_inv
theorem witness_PlatformAddressesReachTheirSpace : 255 < Space.reg.bytes ∧ 0 < Space.inBuf.bytes :=
  ⟨by decide, lt_of_lt_of_le (by decide) inBufBytes_ge⟩
theorem witness_RegisterByteLanes : 3 < 4 ∧ 7 < 8 := by decide

end Sys2Proof.Tests
end

section
/-! SUPPORT. The state family (10_state.md): the lengths of the commands' results, the invariant kept by every
operation and step, which accesses may change IN, OUT and ACT, and the words the registers read. -/

open Sys2Proof

namespace Sys2Proof.Machine

/-! ### Lengths of the results (R29, R122, R163, R188) -/

/-- The chunk of a whole data unit and its parity fills du + opc bytes, since bbm + parity fit in opc (R162). -/
theorem layChunk_length {a : Act} (h : a.Legal) {d parity : Bytes} (hd : d.length = a.du)
    (hp : parity.length = a.parity) : (layChunk a d parity).length = a.du + a.opc := by
  have hgeo := h.geometry
  have he : insertionPoint a ≤ a.du := Nat.min_le_right _ _
  simp only [layChunk, List.length_append, slice_length, rep_length, hd, hp]
  omega

theorem chunkProgram_length {a : Act} (h : a.Legal) {u chunk : Bytes} (hc : chunkProgram a u = .ok chunk) :
    chunk.length = a.du + a.opc := by
  obtain ⟨hu, p, hp, rfl⟩ := (chunkProgram_ok_iff a u chunk).mp hc
  refine layChunk_length h ?_ ?_
  · rw [paddedUnit, padRight_length]
    omega
  · rw [codecEncode_length hp, legal_parity h]

theorem pageChunks_length {a : Act} (h : a.Legal) (y : Bytes) {n : Nat} {out : Bytes}
    (ho : pageChunks a y n = .ok out) : out.length = n * (a.du + a.opc) := by
  induction n generalizing out with
  | zero =>
    cases ho
    simp
  | succ n ih =>
    simp only [pageChunks] at ho
    split at ho
    · cases ho
    · rename_i before hbefore
      split at ho
      · cases ho
      · rename_i chunk hchunk
        cases ho
        rw [List.length_append, ih hbefore, chunkProgram_length h hchunk, Nat.succ_mul]

/-- The page image fills page_size + oob_size bytes, since the chunks meet the OOB budget (R182, R188). -/
theorem pageProgram_length {a : Act} (h : a.Legal) {x r : Bytes} (hr : pageProgram a x = .ok r) :
    r.length = a.pageSize + a.oobSize := by
  unfold pageProgram at hr
  split at hr
  · cases hr
  · split at hr
    · cases hr
    · rename_i out hout
      cases hr
      have hbudget := h.budget
      rw [padRight_length, pageChunks_length h _ hout, ← legal_required h]
      omega

/-- What a data command needs of its fields so that its result fits in OUT and in OUT_LEN. -/
structure DataCommand.Sized (c : DataCommand) : Prop where
  fits : ∀ a : Act, a.Legal → c.size a ≤ outBufBytes
  isWord : ∀ a : Act, a.Legal → c.size a < 2 ^ 32
  length : ∀ (a : Act) (x r : Bytes), a.Legal → c.run a x = .ok r → r.length = c.size a

/-- A chunk is at most 516 + 16 bytes long (R161). -/
theorem legal_chunk_le {a : Act} (h : a.Legal) : a.du + a.opc ≤ 532 := by
  have := legal_du_cases h
  have := legal_opc_cases h
  omega

/-- Results of at most one chunk fit whatever the open capacities are (R9). -/
theorem sized_of_le_chunk {c : DataCommand} (hle : ∀ a : Act, a.Legal → c.size a ≤ a.du + a.opc)
    (hlen : ∀ (a : Act) (x r : Bytes), a.Legal → c.run a x = .ok r → r.length = c.size a) : c.Sized := by
  have small : ∀ a : Act, a.Legal → c.size a ≤ 532 := fun a h => (hle a h).trans (legal_chunk_le h)
  exact ⟨fun a h => (small a h).trans (le_trans (by decide) outBufBytes_ge),
    fun a h => (small a h).trans_lt (by decide), hlen⟩

theorem encodeCommand_sized : encodeCommand.Sized := by
  refine sized_of_le_chunk (fun a h => ?_) fun a x r h hr => (codecEncode_length hr).trans (legal_parity h).symm
  have hgeo := h.geometry
  change a.parity ≤ a.du + a.opc
  omega

theorem chunkCommand_sized : chunkCommand.Sized :=
  sized_of_le_chunk (fun _ h => (legal_chunkSize h).le) fun _ _ _ h hr =>
    (chunkProgram_length h hr).trans (legal_chunkSize h).symm

theorem pageCommand_sized : pageCommand.Sized :=
  ⟨fun _ h => (legal_image h).1, fun _ h => (legal_image h).2, fun _ _ _ h hr => pageProgram_length h hr⟩

/-! ### What executing a command can do -/

/-- Every command is CONFIGURE or a data command whose results fit (R92, R181, R150, R169, R189). -/
theorem exec_cases {i : Instr} {s t : State} (h : exec i s = .next t) :
    (i = .configure ∧ t = configureCommand s) ∨
    (i ≠ .configure ∧ ∃ c : DataCommand, c.Sized ∧ c.instr = i ∧ t = dataCommand c s) := by
  cases i with
  | configure =>
    cases h
    exact .inl ⟨rfl, rfl⟩
  | programPage =>
    cases h
    exact .inr ⟨by decide, pageCommand, pageCommand_sized, rfl, rfl⟩
  | programChunk =>
    cases h
    exact .inr ⟨by decide, chunkCommand, chunkCommand_sized, rfl, rfl⟩
  | encode =>
    cases h
    exact .inr ⟨by decide, encodeCommand, encodeCommand_sized, rfl, rfl⟩

/-- Everything an ILLEGAL word can do: it is dropped, or it clears the result and records E_ILLEGAL_CMD (R223). -/
theorem illegalCommand_cases (op : BitVec 4) (s : State) :
    (s.err ≠ none ∧ illegalCommand op s = s) ∨
    (s.err = none ∧ illegalCommand op s = raiseError .illegalCmd op (clearResult s)) := by
  cases he : s.err with
  | some e => exact .inl ⟨by simp, unlessError_of_some he _⟩
  | none => exact .inr ⟨rfl, unlessError_of_none he _⟩

/-- The opcode map sends only a command's own OPCODE to it (R92). -/
theorem eq_opcodeOf_of_opcodeMap {op : BitVec 4} {i : Instr} (h : opcodeMap op = .ok i) : op = opcodeOf i := by
  cases i <;> revert op <;> decide

/-- Only its own CMD word decodes to a command (R91, R92). -/
theorem eq_encode_of_decode {w : Word} {i : Instr} (h : decode w = .ok i) : w = encode i := by
  have fields : w = rsvdField w ++ opcodeField w := by
    simp [rsvdField, opcodeField, BitVec.extractLsb'_append_extractLsb'_eq_extractLsb' (start₁ := 0) (len₁ := 4)]
  unfold decode at h
  split at h
  · cases h
  · rename_i hr
    rw [fields, not_not.mp hr, eq_opcodeOf_of_opcodeMap h]
    cases i <;> rfl

/-! ### What commands leave unchanged -/

theorem configureCommand_sameOperands (s : State) : SameOperands s (configureCommand s) := by
  rcases configureCommand_cases s with ⟨a, -, ht⟩ | ⟨e, -, ht⟩ <;> simp [ht, SameOperands]

theorem dataCommand_sameOperands (c : DataCommand) (s : State) : SameOperands s (dataCommand c s) := by
  rcases dataCommand_cases c s with ⟨-, ht⟩ | ⟨-, e, n, -, ht⟩ | ⟨-, a, r, -, -, -, -, ht⟩ <;>
    simp [ht, SameOperands]

/-- A command writes no operand register, no IN byte and no host-side field (R26-R28, R38). -/
theorem exec_sameOperands {i : Instr} {s t : State} (h : exec i s = .next t) : SameOperands s t := by
  rcases exec_cases h with ⟨-, rfl⟩ | ⟨-, c, -, -, rfl⟩
  · exact configureCommand_sameOperands s
  · exact dataCommand_sameOperands c s

theorem illegalCommand_sameOperands (op : BitVec 4) (s : State) : SameOperands s (illegalCommand op s) := by
  rcases illegalCommand_cases op s with ⟨-, ht⟩ | ⟨-, ht⟩ <;> simp [ht, SameOperands]

theorem issueCommand_sameOperands {w : Word} {s t : State} (h : issueCommand w s = .next t) : SameOperands s t := by
  rcases issueCommand_cases h with ⟨i, -, hi⟩ | ⟨-, rfl⟩
  · exact exec_sameOperands hi
  · exact illegalCommand_sameOperands _ s

/-- A data command never writes ACT (R33). -/
@[simp] theorem dataCommand_act (c : DataCommand) (s : State) : (dataCommand c s).act = s.act := by
  rcases dataCommand_cases c s with ⟨-, ht⟩ | ⟨-, e, n, -, ht⟩ | ⟨-, a, r, -, -, -, -, ht⟩ <;> simp [ht]

@[simp] theorem illegalCommand_act (op : BitVec 4) (s : State) : (illegalCommand op s).act = s.act := by
  rcases illegalCommand_cases op s with ⟨-, ht⟩ | ⟨-, ht⟩ <;> simp [ht]

/-- A CMD write changes ACT only when its word is CONFIGURE's (R33). -/
theorem issueCommand_act {w : Word} {s t : State} (h : issueCommand w s = .next t) :
    w = encode .configure ∨ t.act = s.act := by
  rcases issueCommand_cases h with ⟨i, hd, hi⟩ | ⟨-, rfl⟩
  · rcases exec_cases hi with ⟨rfl, -⟩ | ⟨-, c, -, -, rfl⟩
    · exact .inl (eq_encode_of_decode hd)
    · exact .inr (dataCommand_act c s)
  · exact .inr (illegalCommand_act _ s)

/-! ### The invariant, operation by operation -/

/-- The invariant speaks of the buffers, the result, the error record and ACT only. -/
theorem inv_of_same {s t : State} (h : s.Inv) (hin : t.inBuf = s.inBuf) (hout : t.outBuf = s.outBuf)
    (hact : t.act = s.act) (herr : t.err = s.err) (hvalid : t.outValid = s.outValid) (hlen : t.outLen = s.outLen) :
    t.Inv := by
  constructor
  case inCanonical => exact hin ▸ h.inCanonical
  case inWithin => exact hin ▸ h.inWithin
  case outCanonical => exact hout ▸ h.outCanonical
  case outWithin => exact hout ▸ h.outWithin
  case actLegal => exact hact ▸ h.actLegal
  case validConfigured => exact hact ▸ hvalid ▸ h.validConfigured
  case validNoError => exact herr ▸ hvalid ▸ h.validNoError
  case validDefined => exact hout ▸ hlen ▸ hvalid ▸ h.validDefined
  case invalidEmpty => exact hlen ▸ hvalid ▸ h.invalidEmpty
  case outLenFits => exact hlen ▸ h.outLenFits

/-- A state with an empty result meets the invariant when its buffers are those of a sound state, its ACT is legal, and
OUT_VALID is set only with an ACT and no error: after a raised error (R222), and after CONFIGURE (R183, R184). -/
theorem inv_of_outLen_zero {s t : State} (h : s.Inv) (hin : t.inBuf = s.inBuf) (hout : t.outBuf = s.outBuf)
    (hlen : t.outLen = 0) (hact : ∀ a, t.act = some a → a.Legal)
    (hvalid : t.outValid = true → t.act.isSome = true ∧ t.err = none) : t.Inv := by
  constructor
  case inCanonical => exact hin ▸ h.inCanonical
  case inWithin => exact hin ▸ h.inWithin
  case outCanonical => exact hout ▸ h.outCanonical
  case outWithin => exact hout ▸ h.outWithin
  case actLegal => exact hact
  case validConfigured => exact fun hv => (hvalid hv).1
  case validNoError => exact fun hv => (hvalid hv).2
  case validDefined => simp [hlen]
  case invalidEmpty => exact fun _ => hlen
  case outLenFits => simp [hlen]

theorem resetPF_inv (s : State) : (resetPF s).Inv := by
  constructor <;> simp [Buffer.wf, Buffer.risingFrom, Buffer.within]

theorem writeInByte_inv {s : State} (h : s.Inv) {a : Nat} (ha : a < inBufBytes) (b : Byte) :
    (writeInByte a b s).Inv :=
  { h with
    inCanonical := store_wf a [b] h.inCanonical
    inWithin := store_within a [b] h.inWithin ha }

theorem raiseError_inv {s : State} (h : s.Inv) (e : ErrorCode) (op : BitVec 4) (n : Nat) :
    (raiseError e op (drew n (clearResult s))).Inv :=
  inv_of_outLen_zero h rfl rfl rfl h.actLegal (by simp)

theorem illegalCommand_inv {s : State} (h : s.Inv) (op : BitVec 4) : (illegalCommand op s).Inv := by
  rcases illegalCommand_cases op s with ⟨-, ht⟩ | ⟨-, ht⟩
  · rwa [ht]
  · rw [ht]
    exact raiseError_inv h _ op 0

/-- What passes CONFIGURE's checks is a legal ACT (R181, R182). -/
theorem configureAct_legal {p o : Nat} {k : BitVec 4} {w : Bool} {a : Act} (h : configureAct p o k w = .ok a) :
    a.Legal := by
  obtain ⟨hp, ho, hpm, hom, kind, -, rfl, -, hb⟩ := configureAct_ok h
  exact buildAct_legal hp ho hpm hom hb

theorem configureCommand_inv {s : State} (h : s.Inv) : (configureCommand s).Inv := by
  rcases configureCommand_cases s with ⟨a, ha, ht⟩ | ⟨e, -, ht⟩ <;> rw [ht]
  · exact inv_of_outLen_zero h rfl rfl rfl (by simpa using configureAct_legal ha) (by simp)
  · exact inv_of_outLen_zero h rfl rfl rfl (by simp) (by simp)

/-- A completed result that fits in OUT and in OUT_LEN is fully defined (R29, R39, R65). -/
theorem complete_inv {s : State} (h : s.Inv) {r : Bytes} {n : Nat} (hr : r.length = n) (hfits : n ≤ outBufBytes)
    (hword : n < 2 ^ 32) (hact : s.act.isSome = true) (herr : s.err = none) : (complete r n s).Inv := by
  have hlen : (complete r n s).outLen.toNat = n := by simpa using hword
  constructor
  case inCanonical => exact h.inCanonical
  case inWithin => exact h.inWithin
  case outCanonical => exact store_wf 0 r h.outCanonical
  case outWithin => exact store_within 0 r h.outWithin (by omega)
  case actLegal => exact h.actLegal
  case validConfigured => exact fun _ => hact
  case validNoError => exact fun _ => herr
  case validDefined =>
    intro _ x hx
    have hx : x < r.length := by omega
    simpa using congrArg Option.isSome (byteAt_store_inside s.outBuf 0 hx)
  case invalidEmpty => simp
  case outLenFits => omega

theorem dataCommand_inv {c : DataCommand} (hc : c.Sized) {s : State} (h : s.Inv) : (dataCommand c s).Inv := by
  rcases dataCommand_cases c s with ⟨-, ht⟩ | ⟨-, e, n, -, ht⟩ | ⟨he, a, r, ha, -, -, hr, ht⟩ <;> rw [ht]
  · exact h
  · exact raiseError_inv h e _ n
  · have hlegal := h.actLegal a ha
    have hcleared : (drew s.inLen.toNat (clearResult s)).Inv :=
      inv_of_outLen_zero h rfl rfl rfl h.actLegal (by simp)
    exact complete_inv hcleared (hc.length a _ r hlegal hr) (hc.fits a hlegal) (hc.isWord a hlegal) (by simp [ha])
      (by simpa using he)

theorem issueCommand_inv {w : Word} {s t : State} (h : s.Inv) (hi : issueCommand w s = .next t) : t.Inv := by
  rcases issueCommand_cases hi with ⟨i, -, hx⟩ | ⟨-, rfl⟩
  · rcases exec_cases hx with ⟨-, rfl⟩ | ⟨-, c, hc, -, rfl⟩
    · exact configureCommand_inv h
    · exact dataCommand_inv hc h
  · exact illegalCommand_inv h _

theorem storeReg_inv {s : State} (h : s.Inv) (r : Reg) (v : Word) : (storeReg r v s).Inv := by
  obtain ⟨hlen, hvalid, herr, hact, hin, hout, -, -, -⟩ := storeReg_frame r v s
  exact inv_of_same h hin hout hact herr hvalid hlen

/-- Settles O37: the state after reset is what PF's reset input makes of it. -/
theorem resetMeetsTheInvariant : Obligations.ResetMeetsTheInvariant := resetPF_inv State.reset

/-- Settles O38: by the kinds of access a step can perform, each keeping the invariant. -/
theorem stepKeepsTheInvariant : Obligations.StepKeepsTheInvariant := by
  intro s t h hst
  rcases step_cases hst with ⟨-, rfl⟩ | ⟨x, rest, -, hx⟩
  · exact h
  have hrest : ({ s with pending := rest } : State).Inv := inv_of_same h rfl rfl rfl rfl rfl rfl
  rcases hx with ⟨-, rfl⟩ | ⟨loc, w, d, n, -, rfl⟩ | ⟨loc, r, v, -, -, -, rfl⟩ | ⟨loc, v, -, -, hi⟩ |
    ⟨loc, a, v, -, -, ha, rfl⟩ | ⟨loc, a, v, -, -, rfl⟩
  · exact resetPF_inv _
  · exact inv_of_same hrest rfl rfl rfl rfl rfl rfl
  · exact storeReg_inv hrest r v
  · exact issueCommand_inv hrest hi
  · exact writeInByte_inv hrest ha _
  · exact hrest

/-! ### Who may change IN, OUT and ACT (R33, R37-R39, R71) -/

/-- Settles O40: among the accesses a step can perform, only reset and a write that reaches IN touch IN. -/
theorem inChangesOnlyByHostWrites : Obligations.InChangesOnlyByHostWrites := by
  intro s t x hst hne
  rcases step_cases hst with ⟨-, rfl⟩ | ⟨y, rest, hp, hy⟩
  · exact absurd rfl hne
  have hnext : nextAccess s = some y := by simp [nextAccess, hp]
  rcases hy with ⟨rfl, -⟩ | ⟨loc, w, d, n, -, rfl⟩ | ⟨loc, r, v, -, -, -, rfl⟩ | ⟨loc, v, -, -, hi⟩ |
    ⟨loc, a, v, rfl, hloc, -, rfl⟩ | ⟨loc, a, v, -, -, rfl⟩
  · exact .inl hnext
  · exact absurd rfl hne
  · obtain ⟨-, -, -, -, hin, -⟩ := storeReg_frame r v { s with pending := rest }
    exact absurd (by rw [hin]) hne
  · obtain ⟨-, -, -, -, -, hin, -⟩ := issueCommand_sameOperands hi
    exact absurd (hin x) hne
  · by_cases hxa : a = x
    · subst hxa
      refine .inr ⟨loc, v, hnext, hloc, ?_⟩
      have hbyte := byteAt_store_inside s.inBuf a (bs := [v.setWidth 8]) (k := 0) (by simp)
      simpa [BitVec.setWidth_eq_extractLsb'] using hbyte
    · exact absurd (byteAt_store_of_outside (by simp; omega)) hne
  · exact absurd rfl hne

/-- Settles O41: among the accesses a step can perform, only reset and CMD writes touch the result and ACT, and of the
CMD words only CONFIGURE's touches ACT. -/
theorem resultsChangeOnlyByCommands : Obligations.ResultsChangeOnlyByCommands := by
  intro s t hst
  rcases step_cases hst with ⟨-, rfl⟩ | ⟨y, rest, hp, hy⟩
  · exact ⟨.inr (.inr ⟨rfl, rfl, rfl, rfl⟩), .inr (.inr rfl)⟩
  have hnext : nextAccess s = some y := by simp [nextAccess, hp]
  rcases hy with ⟨rfl, -⟩ | ⟨loc, w, d, n, -, rfl⟩ | ⟨loc, r, v, -, -, -, rfl⟩ | ⟨loc, v, rfl, hloc, hi⟩ |
    ⟨loc, a, v, -, -, -, rfl⟩ | ⟨loc, a, v, -, -, rfl⟩
  · exact ⟨.inr (.inl hnext), .inr (.inl hnext)⟩
  · exact ⟨.inr (.inr ⟨rfl, rfl, rfl, rfl⟩), .inr (.inr rfl)⟩
  · obtain ⟨hlen, hvalid, herr, hact, -, hout, -⟩ := storeReg_frame r v { s with pending := rest }
    exact ⟨.inr (.inr ⟨hout, hvalid, hlen, herr⟩), .inr (.inr hact)⟩
  · refine ⟨.inl ⟨v, loc, hnext, hloc⟩, ?_⟩
    rcases issueCommand_act hi with rfl | hact
    · exact .inl ⟨loc, hnext, hloc⟩
    · exact .inr (.inr hact)
  · exact ⟨.inr (.inr ⟨rfl, rfl, rfl, rfl⟩), .inr (.inr rfl)⟩
  · exact ⟨.inr (.inr ⟨rfl, rfl, rfl, rfl⟩), .inr (.inr rfl)⟩

/-! ### OUT_LEN and the defined bytes of OUT (R29, R39) -/

/-- A data command from an error-free state ends with an error and OUT_LEN 0, or with its result's length in OUT_LEN. -/
theorem dataCommand_outLen {c : DataCommand} (hc : c.Sized) {s : State} (hlegal : ∀ a, s.act = some a → a.Legal)
    (he : s.err = none) :
    ((dataCommand c s).err ≠ none → (dataCommand c s).outLen = 0) ∧
    ((dataCommand c s).err = none → ∃ a, (dataCommand c s).act = some a ∧ a.Legal ∧
      (dataCommand c s).outLen.toNat = c.size a) := by
  rw [dataCommand_act]
  rcases dataCommand_cases c s with ⟨hne, -⟩ | ⟨-, e, n, -, ht⟩ | ⟨-, a, r, ha, -, -, -, ht⟩
  · exact absurd he hne
  · rw [ht]
    exact ⟨fun _ => rfl, by simp⟩
  · have hl := hlegal a ha
    rw [ht]
    exact ⟨by simp [he], fun _ => ⟨a, ha, hl, by simpa using hc.isWord a hl⟩⟩

/-- Settles O52: CONFIGURE leaves OUT_LEN 0, and each data command the size of its result. -/
theorem outLenFollowsTheCommand : Obligations.OutLenFollowsTheCommand := by
  intro i s t hlegal he hx
  cases i <;> cases hx
  case configure =>
    rcases configureCommand_cases s with ⟨a, -, ht⟩ | ⟨e, -, ht⟩ <;> simp [ht]
  case programPage =>
    obtain ⟨herr, hok⟩ := dataCommand_outLen pageCommand_sized hlegal he
    exact ⟨herr, fun hn => (hok hn).imp fun a ⟨ha, _, hlen⟩ => ⟨ha, hlen⟩⟩
  case programChunk =>
    obtain ⟨herr, hok⟩ := dataCommand_outLen chunkCommand_sized hlegal he
    exact ⟨herr, fun hn => (hok hn).imp fun a ⟨ha, hl, hlen⟩ => ⟨ha, hlen.trans (legal_chunkSize hl)⟩⟩
  case encode =>
    obtain ⟨herr, hok⟩ := dataCommand_outLen encodeCommand_sized hlegal he
    exact ⟨herr, fun hn => (hok hn).imp fun a ⟨ha, _, hlen⟩ => ⟨ha, hlen⟩⟩

/-- Settles O53: OUT[0..OUT_LEN) is defined by the invariant, and no byte outside it by definition. -/
theorem validResultIsDefined : Obligations.ValidResultIsDefined := by
  intro s x h
  unfold outDefined
  split
  · rename_i hx
    exact iff_of_true (h.validDefined hx.1 x hx.2) hx
  · rename_i hx
    exact iff_of_false (by simp) hx

/-! ### Fields of register words (R10) -/

/-- The bits of a placed field, in the form `simp` gives a bit below 32. -/
@[simp] theorem getElem_place {n : Nat} (lo : Nat) (field : BitVec n) (k : Nat) (hk : k < 32) :
    (place lo field)[k] = (decide (lo ≤ k) && field.getLsbD (k - lo)) := by
  rw [← BitVec.getLsbD_eq_getElem, getLsbD_place, decide_eq_true hk, Bool.true_and]

/-- A placed field that fits in the word reads back whole. -/
theorem extractLsb'_place_same {n lo : Nat} (field : BitVec n) (h : lo + n ≤ 32) :
    (place lo field).extractLsb' lo n = field := by
  apply BitVec.eq_of_getLsbD_eq
  intro k hk
  simp [hk, show lo + k < 32 by omega]

/-- A placed field leaves every range beside it 0. -/
theorem extractLsb'_place_disjoint {n lo start len : Nat} (field : BitVec n)
    (h : lo + n ≤ start ∨ start + len ≤ lo) : (place lo field).extractLsb' start len = 0 := by
  apply BitVec.eq_of_getLsbD_eq
  intro k hk
  rcases h with h | h
  · simp [BitVec.getLsbD_of_ge field (start + k - lo) (by omega)]
  · simp [show ¬ lo ≤ start + k by omega]

/-! ### STATUS and CODEC (R25, R31, R221) -/

theorem statusWord_configured (s : State) : (statusWord s).getLsbD 0 = s.act.isSome := by
  simp [statusWord, configured]

theorem statusWord_outValid (s : State) : (statusWord s).getLsbD 1 = s.outValid := by
  simp [statusWord]

theorem statusWord_err (s : State) : (statusWord s).getLsbD 2 = s.err.isSome := by
  simp [statusWord]

/-- The ranges of STATUS from bit 3 up: two fields and two reserved ranges (R25). -/
theorem statusWord_ranges (s : State) :
    (statusWord s).extractLsb' 8 8 = errCode s ∧ (statusWord s).extractLsb' 16 4 = errOp s ∧
    (statusWord s).extractLsb' 3 5 = 0 ∧ (statusWord s).extractLsb' 20 12 = 0 := by
  simp [statusWord, BitVec.extractLsb'_or, extractLsb'_place_same, extractLsb'_place_disjoint]

/-- Settles O49: field by field, with every error code nonzero. -/
theorem statusFields : Obligations.StatusFields := by
  refine ⟨by decide, fun s => ?_⟩
  obtain ⟨hcode, hop, hlow, hhigh⟩ := statusWord_ranges s
  simp only [readReg, statusWord_configured, statusWord_outValid, statusWord_err, hcode, hop, hlow, hhigh]
  refine ⟨trivial, trivial, ?_, trivial, trivial, trivial, ?_, ?_⟩
  · exact (errFlag_eq s).symm
  · intro e he
    simp [errCode, errOp, he]
  · intro he
    simp [errCode, errOp, he]

/-- Settles O50: by the codec of ACT. -/
theorem codecFields : Obligations.CodecFields := by
  intro s
  refine ⟨fun ha => ?_, fun a ha hc => ?_, fun a ha hc => ?_, fun a ha hc => ?_⟩
  · simp [readReg, codecWord, codecId, bchStrength, ha, place]
  all_goals
    simp only [readReg, codecWord, codecId, bchStrength, ha, hc]
    decide

/-! ### The geometry registers (R30) -/

theorem geometryWord_of_none {s : State} (h : s.act = none) (field : Act → Nat) : geometryWord s field = 0 := by
  simp [geometryWord, h]

theorem geometryWord_toNat {s : State} {a : Act} (h : s.act = some a) {field : Act → Nat} (hf : field a < 2 ^ 32) :
    (geometryWord s field).toNat = field a := by
  simpa [geometryWord, h] using hf

/-- The chunks of a page fit in its image, so `required` and its factors fit in 32 bits (R182, R9). -/
theorem legal_chunksNeeded_le_required {a : Act} (h : a.Legal) : a.chunksNeeded ≤ a.required := by
  rw [legal_required h]
  have := legal_du_cases h
  exact Nat.le_mul_of_pos_right _ (by omega)

/-- A geometry register reads the ACT field of the map, which fits in 32 bits (R30). -/
theorem geometry_register {r : Reg} {field : Act → Nat}
    (h : (r, field) ∈ [(Reg.dataUnitSize, Act.du), (.oobPerChunk, Act.opc), (.bbmSize, Act.bbm),
      (.paritySize, Act.parity), (.bbmOffset, Act.bbmOffset), (.chunksNeeded, Act.chunksNeeded),
      (.required, Act.required)]) :
    (∀ s, readReg r s = geometryWord s field) ∧ ∀ a : Act, a.Legal → field a < 2 ^ 32 := by
  simp only [List.mem_cons, List.not_mem_nil, or_false, Prod.mk.injEq] at h
  have bound : ∀ a : Act, a.Legal → field a ≤ a.du + a.opc ∨ field a ≤ a.pageSize + a.oobSize → field a < 2 ^ 32 := by
    intro a ha hle
    have := legal_chunk_le ha
    have := (legal_image ha).2
    omega
  rcases h with ⟨rfl, rfl⟩ | ⟨rfl, rfl⟩ | ⟨rfl, rfl⟩ | ⟨rfl, rfl⟩ | ⟨rfl, rfl⟩ | ⟨rfl, rfl⟩ | ⟨rfl, rfl⟩ <;>
    refine ⟨fun s => rfl, fun a ha => bound a ha ?_⟩
  · exact .inl (Nat.le_add_right _ _)
  · exact .inl (Nat.le_add_left _ _)
  · exact .inl (by have := ha.geometry; omega)
  · exact .inl (by have := ha.geometry; omega)
  · refine .inr ?_
    rw [legal_bbmOffset ha]
    exact (Nat.mod_le _ _).trans (Nat.le_add_right _ _)
  · exact .inr ((legal_chunksNeeded_le_required ha).trans ha.budget)
  · exact .inr ha.budget

/-- Settles O51: each register of the table reads its ACT field, and that field of a legal ACT fits in a word. -/
theorem geometryRegistersShowAct : Obligations.GeometryRegistersShowAct := by
  intro s r field h
  obtain ⟨hread, hlt⟩ := geometry_register h
  rw [hread]
  exact ⟨fun ha => geometryWord_of_none ha field, fun a ha hl => geometryWord_toNat ha (hlt a hl)⟩

/-! ### Register reads and writes (R23, R24, R26-R28, R32, R40) -/

/-- The accesses still to come show in no register (log 1). -/
@[simp] theorem readReg_pending (r : Reg) (s : State) (rest : List Access) :
    readReg r { s with pending := rest } = readReg r s := by
  cases r <;> rfl

/-- Settles O44: by evaluation of the reset state. -/
theorem resetRegisterReads : Obligations.ResetRegisterReads :=
  ⟨by decide, fun _ => ⟨rfl, by simp [outDefined, State.reset]⟩⟩

/-- Settles O45: the table of the statement is the register map. -/
theorem registerReadsFollowTheMap : Obligations.RegisterReadsFollowTheMap := by
  intro s rest off v hmem hp
  have hmap : (off, v) ∈ Reg.all.map fun r => (r.offset, readReg r s) := hmem
  obtain ⟨r, -, hr⟩ := List.mem_map.mp hmap
  obtain ⟨rfl, rfl⟩ := Prod.mk.injEq .. ▸ hr
  rw [step_access hp]
  change hostRead .reg 32 r.offset _ = _
  rw [hostRead_reg, readReg_pending]
  rfl

/-- ECC_CFG stores bits 3:0 and 8 of the word written and drops the others (R28). -/
theorem eccCfgWord_writeEccCfg (v : Word) (s : State) : eccCfgWord (writeEccCfg v s) = v &&& 0x0000010F := by
  have mask : ∀ k : Fin 32, (0x0000010F : Word).getLsbD k = (decide (k.val < 4) || decide (k.val = 8)) := by decide
  apply BitVec.eq_of_getLsbD_eq
  intro k hk
  have hmask := mask ⟨k, hk⟩
  rw [BitVec.getLsbD_and, hmask]
  by_cases h8 : k = 8
  · subst h8
    simp [eccCfgWord]
  · by_cases h4 : k < 4
    · simp [eccCfgWord, hk, h4, h8, show ¬ 8 ≤ k by omega]
    · simp [eccCfgWord, hk, h4, h8]
      omega

/-- What a register reads after a store to it: the word, the masked word, or what it read before (R26-R28, R32). -/
theorem readReg_storeReg_same (r : Reg) (v : Word) (s : State) :
    readReg r (storeReg r v s) =
      if r = .pageSize ∨ r = .oobSize ∨ r = .inLen then v
      else if r = .eccCfg then v &&& 0x0000010F else readReg r s := by
  cases r
  case eccCfg => exact eccCfgWord_writeEccCfg v s
  all_goals rfl

/-- A store to one register changes what no other register reads (R71). -/
theorem readReg_storeReg_other {r r' : Reg} (h : r' ≠ r) (v : Word) (s : State) :
    readReg r' (storeReg r v s) = readReg r' s := by
  cases r
  case pageSize | oobSize | eccCfg | inLen => cases r' <;> trivial
  all_goals rfl

/-- Settles O46: a write to a register other than CMD is its store. -/
theorem registerWritesStoreOrAreIgnored : Obligations.RegisterWritesStoreOrAreIgnored := by
  intro s rest r v hr hp
  obtain ⟨-, -, herr, hact, hin, hout, hpending, hread, hfree⟩ := storeReg_frame r v { s with pending := rest }
  refine ⟨storeReg r v { s with pending := rest }, ?_, ?_, fun r' h' => ?_, hin, hout, hact, herr,
    hpending, hread, hfree⟩
  · rw [step_access hp]
    change hostWrite .reg 32 r.offset v _ = _
    rw [hostWrite_reg, writeReg, if_neg hr]
  · rw [readReg_storeReg_same, readReg_pending]
  · rw [readReg_storeReg_other h', readReg_pending]

end Sys2Proof.Machine
end

section
/-! SUPPORT. The memory family (20_memory.md): which accesses reach a register, a buffer byte or a command and which are
refused, what a read leaves unchanged, who can raise E_IN_RANGE, the platform map, and the byte lanes of a word. -/

open Sys2Proof

namespace Sys2Proof.Machine

/-! ### Commands issued by CMD writes (R73, R223) -/

/-- A word that decodes runs its command (R223). -/
theorem issueCommand_of_decode {w : Word} {i : Instr} (h : decode w = .ok i) (s : State) :
    issueCommand w s = exec i s := by
  simp [issueCommand, h]

/-- Settles O4: the access is consumed, and the word decoded is run. -/
theorem stepRunsDecodedCommand : Obligations.StepRunsDecodedCommand := by
  intro s rest w i hp hd
  rw [step_cmdWrite hp, issueCommand_of_decode hd]

/-! ### Byte lanes (R69) -/

/-- Bit i of lane k is register bit 8k + i (R69). -/
@[simp] theorem getLsbD_byteLane (w : Word) (k : Nat) {i : Nat} (hi : i < 8) :
    (byteLane w k).getLsbD i = w.getLsbD (8 * k + i) := by
  simp [byteLane, hi]

/-- A lane placed where it was taken from holds the word's bits there and zeros elsewhere. -/
theorem getLsbD_place_byteLane (w : Word) (k i : Nat) :
    (place (8 * k) (byteLane w k)).getLsbD i =
      (decide (i < 32) && decide (8 * k ≤ i) && decide (i < 8 * k + 8) && w.getLsbD i) := by
  rw [getLsbD_place]
  by_cases hlo : 8 * k ≤ i
  · by_cases hhi : i < 8 * k + 8
    · rw [getLsbD_byteLane w k (by omega), show 8 * k + (i - 8 * k) = i by omega]
      simp [hhi]
    · simp [hhi, BitVec.getLsbD_of_ge (byteLane w k) (i - 8 * k) (by omega)]
  · simp [hlo]

/-- The four lanes in order make up the word: every bit below 32 lies in exactly one of them (R69). -/
theorem wordOfLanes_byteLane (w : Word) :
    wordOfLanes (byteLane w 0) (byteLane w 1) (byteLane w 2) (byteLane w 3) = w := by
  apply BitVec.eq_of_getLsbD_eq
  intro i hi
  have h0 := getLsbD_place_byteLane w 0 i
  have h1 := getLsbD_place_byteLane w 1 i
  have h2 := getLsbD_place_byteLane w 2 i
  have h3 := getLsbD_place_byteLane w 3 i
  simp only [Nat.mul_zero, Nat.mul_one, Nat.reduceMul] at h0 h1 h2 h3
  simp only [wordOfLanes, BitVec.getLsbD_or, h0, h1, h2, h3]
  cases w.getLsbD i
  · simp
  · simp
    omega

/-- Settles O55: bit by bit. -/
theorem registerByteLanes : Obligations.RegisterByteLanes :=
  fun w => ⟨wordOfLanes_byteLane w, fun k _ _ hi => getLsbD_byteLane w k hi⟩

/-! ### The platform map (R61) -/

theorem holds_iff (address : Nat) (sp : Space) :
    Space.holds address sp = true ↔ sp.base ≤ address ∧ address < sp.base + sp.bytes := by
  simp [Space.holds]

/-- The spaces whose windows cover a platform address: the list `resolve` decides by (R61). -/
def coveringSpaces (address : Nat) : List Space :=
  [Space.reg, Space.inBuf, Space.outBuf].filter (Space.holds address)

theorem mem_coveringSpaces (address : Nat) (sp : Space) :
    sp ∈ coveringSpaces address ↔ sp.base ≤ address ∧ address < sp.base + sp.bytes := by
  have every : sp ∈ [Space.reg, Space.inBuf, Space.outBuf] := by cases sp <;> decide
  rw [coveringSpaces, List.mem_filter, holds_iff]
  exact and_iff_right every

theorem coveringSpaces_nodup (address : Nat) : (coveringSpaces address).Nodup :=
  List.Nodup.filter _ (by decide)

/-- An address of one window only reaches that space (R61). -/
theorem resolve_platform_of_one {address : Nat} {sp : Space} (h : coveringSpaces address = [sp]) :
    resolve (.platform address) = .ok (sp, address - sp.base) := by
  unfold coveringSpaces at h
  simp [resolve, h]

/-- An address of several windows is refused (log 10). -/
theorem resolve_platform_of_several {address : Nat} {sp sp' : Space} {rest : List Space}
    (h : coveringSpaces address = sp :: sp' :: rest) :
    resolve (.platform address) = .error .addressAmbiguous := by
  unfold coveringSpaces at h
  simp [resolve, h]

/-- Settles O54: by the number of windows that cover the address, which is at least one. -/
theorem platformAddressesReachTheirSpace : Obligations.PlatformAddressesReachTheirSpace := by
  intro sp off hoff
  have hmem : sp ∈ coveringSpaces (sp.base + off) := (mem_coveringSpaces _ sp).mpr (by omega)
  have hnodup := coveringSpaces_nodup (sp.base + off)
  cases hl : coveringSpaces (sp.base + off) with
  | nil => simp [hl] at hmem
  | cons first others =>
    cases others with
    | nil =>
      obtain rfl : sp = first := by simpa [hl] using hmem
      left
      rw [resolve_platform_of_one hl, Nat.add_sub_cancel_left]
    | cons second others =>
      refine .inr ⟨resolve_platform_of_several hl, ?_⟩
      have covers : ∀ x, x ∈ first :: second :: others → x.base ≤ sp.base + off ∧ sp.base + off < x.base + x.bytes :=
        fun x hx => (mem_coveringSpaces _ x).mp (hl ▸ hx)
      by_cases hsp : first = sp
      · have hne : first ≠ second := by
          rw [hl] at hnodup
          exact fun he => (List.nodup_cons.mp hnodup).1 (he ▸ List.mem_cons_self)
        exact ⟨second, fun he => hne (hsp.trans he.symm), covers second (by simp)⟩
      · exact ⟨first, hsp, covers first (by simp)⟩

/-! ### What a read leaves unchanged (R71) -/

/-- A read that is not refused consumes its access, delivers data and counts its draws, and does nothing else (R71). -/
theorem step_read_next {s t : State} {loc : Loc} {width : Nat} {rest : List Access}
    (hp : s.pending = .read loc width :: rest) (h : step s = .next t) :
    ∃ d n, t = deliver d (drew n { s with pending := rest }) := by
  rcases step_cases h with ⟨hnil, -⟩ | ⟨x, rest', hp', hx⟩
  · simp [hnil] at hp
  obtain ⟨rfl, rfl⟩ := List.cons.inj (hp.symm.trans hp')
  rcases hx with ⟨⟨⟩, -⟩ | ⟨_, _, d, n, -, ht⟩ | ⟨_, _, _, ⟨⟩, -⟩ | ⟨_, _, ⟨⟩, -⟩ | ⟨_, _, _, ⟨⟩, -⟩ | ⟨_, _, _, ⟨⟩, -⟩
  exact ⟨d, n, ht⟩

/-- Settles O42: delivering data and counting draws write no other field. -/
theorem readsChangeNoState : Obligations.ReadsChangeNoState := by
  intro s t loc width rest hp hst
  obtain ⟨d, n, rfl⟩ := step_read_next hp hst
  exact ⟨rfl, by simp⟩

/-! ### Refused accesses (R62-R64, R226) -/

/-- The registers end at offset 0x38 (10_state.md R23). -/
theorem regAt_eq_none {off : Nat} (h : 0x3C ≤ off) : regAt off = none := by
  refine List.find?_eq_none.mpr fun r _ => ?_
  have last : r.offset ≤ 0x38 := by cases r <;> decide
  simp only [beq_iff_eq]
  omega

/-- Why a REG access is refused, the first reason that applies (R60, R62, R63; log 7). -/
theorem regTarget_refused (width off : Nat) :
    (width ≠ 32 → regTarget width off = .error .regWidth) ∧
    (width = 32 → off % 4 ≠ 0 → regTarget width off = .error .regMisaligned) ∧
    (width = 32 → off % 4 = 0 → 0x3C ≤ off → off ≤ 0xFC → regTarget width off = .error .regReserved) ∧
    (width = 32 → off % 4 = 0 → 0x100 ≤ off → regTarget width off = .error .regRange) := by
  refine ⟨fun hw => ?_, fun hw ha => ?_, fun hw ha hlo hhi => ?_, fun hw ha hr => ?_⟩
  · simp [regTarget, hw]
  · simp [regTarget, hw, ha]
  · simp [regTarget, hw, ha, regAt_eq_none hlo, show ¬ regBytes ≤ off by unfold regBytes; omega]
  · simp [regTarget, hw, ha, show regBytes ≤ off from hr]

/-- A refused REG access, read or write, ends the step in its fault (R226). -/
theorem step_reg_refused {s : State} {x : Access} {rest : List Access} {width off : Nat} {f : Fault}
    (hp : s.pending = x :: rest)
    (hx : x = .read (.offset .reg off) width ∨ ∃ v, x = .write (.offset .reg off) width v)
    (hf : regTarget width off = .error f) : step s = .fault f := by
  rw [step_access hp]
  rcases hx with rfl | ⟨v, rfl⟩
  · simp [hostAccess, resolve, hostRead, hf]
  · simp [hostAccess, resolve, hostWrite, hf]

/-- Settles O47: each reason refuses the target, and a refused target faults the step. -/
theorem refusedRegisterAccesses : Obligations.RefusedRegisterAccesses := by
  intro s rest x width off hp hx
  have refused {f : Fault} (hf : regTarget width off = .error f) : step s = .fault f := step_reg_refused hp hx hf
  obtain ⟨hwidth, halign, hreserved, hrange⟩ := regTarget_refused width off
  exact ⟨fun hw => refused (hwidth hw), fun hw ha => refused (halign hw ha),
    fun hw ha hlo hhi => refused (hreserved hw ha hlo hhi), fun hw ha hr => refused (hrange hw ha hr)⟩

/-- Why an IN or OUT access is refused (R64; log 7). -/
theorem bufferTarget_refused (size width off : Nat) :
    (width ≠ 8 → bufferTarget size width off = .error .bufferWidth) ∧
    (width = 8 → size ≤ off → bufferTarget size width off = .error .bufferRange) := by
  refine ⟨fun hw => ?_, fun hw hs => ?_⟩
  · simp [bufferTarget, hw]
  · simp [bufferTarget, hw, hs]

/-- A one-byte access inside the space reaches its offset (R64). -/
theorem bufferTarget_inside {size off : Nat} (h : off < size) : bufferTarget size 8 off = .ok off := by
  simp [bufferTarget, show ¬ size ≤ off by omega]

/-- A refused IN or OUT access, read or write, ends the step in its fault (R226). -/
theorem step_buffer_refused {s : State} {sp : Space} {x : Access} {rest : List Access} {width off : Nat} {v : Word}
    {f : Fault} (hsp : sp ≠ .reg) (hx : x = .read (.offset sp off) width ∨ x = .write (.offset sp off) width v)
    (hp : s.pending = x :: rest) (hf : bufferTarget sp.bytes width off = .error f) : step s = .fault f := by
  rw [step_access hp]
  cases sp with
  | reg => exact absurd rfl hsp
  | inBuf | outBuf =>
    simp only [Space.bytes] at hf
    rcases hx with rfl | rfl
    · simp [hostAccess, resolve, hostRead, hf]
    · simp [hostAccess, resolve, hostWrite, hf]

/-! ### What accesses to IN and OUT do (R64, R38, R39) -/

theorem inByte_eq (s : State) (a draw : Nat) :
    inByte s a draw = (Buffer.byteAt s.inBuf a).getD (Config.freeByte draw) := by
  unfold inByte
  cases Buffer.byteAt s.inBuf a <;> rfl

theorem outByte_eq (s : State) (a draw : Nat) :
    outByte s a draw = (outDefined s a).getD (Config.freeByte draw) := by
  unfold outByte
  cases outDefined s a <;> rfl

section
variable {s : State} {rest : List Access} {a : Nat}

/-- A write to OUT is ignored (R64). -/
theorem step_writeOut {v : Word} (ha : a < outBufBytes) (hp : s.pending = .write (.offset .outBuf a) 8 v :: rest) :
    step s = .next { s with pending := rest } := by
  simp [step_access hp, hostAccess, resolve, hostWrite, bufferTarget_inside ha]

/-- A write to IN stores the low byte (R64, log 18). -/
theorem step_writeIn {v : Word} (ha : a < inBufBytes) (hp : s.pending = .write (.offset .inBuf a) 8 v :: rest) :
    step s = .next (writeInByte a (v.setWidth 8) { s with pending := rest }) := by
  simp [step_access hp, hostAccess, resolve, hostWrite, bufferTarget_inside ha]

theorem step_readIn (ha : a < inBufBytes) (hp : s.pending = .read (.offset .inBuf a) 8 :: rest) :
    step s = .next (readInByte a { s with pending := rest }) := by
  simp [step_access hp, hostAccess, resolve, hostRead, bufferTarget_inside ha]

theorem step_readOut (ha : a < outBufBytes) (hp : s.pending = .read (.offset .outBuf a) 8 :: rest) :
    step s = .next (readOutByte a { s with pending := rest }) := by
  simp [step_access hp, hostAccess, resolve, hostRead, bufferTarget_inside ha]

end

/-- Storing one byte changes that offset and no other (R38). -/
theorem byteAt_store_byte (m : Buffer) (a : Nat) (b : Byte) (x : Nat) :
    Buffer.byteAt (Buffer.store m a [b]) x = if x = a then some b else Buffer.byteAt m x := by
  by_cases hx : x = a
  · subst hx
    simpa using byteAt_store_inside m x (bs := [b]) (k := 0) (by simp)
  · rw [if_neg hx]
    exact byteAt_store_of_outside (by simp; omega)

/-- Settles O48: a refused target faults, and each of the four allowed accesses is its operation. -/
theorem bufferAccessRules : Obligations.BufferAccessRules := by
  intro s rest a width v
  refine ⟨fun sp hsp x hx hp => ?_, step_writeOut, fun ha hp => ?_, fun ha hp => ?_, fun ha hp => ?_⟩
  · obtain ⟨hwidth, hrange⟩ := bufferTarget_refused sp.bytes width a
    exact ⟨fun hw => step_buffer_refused hsp hx hp (hwidth hw),
      fun hw hs => step_buffer_refused hsp hx hp (hrange hw hs)⟩
  · refine ⟨_, step_writeIn ha hp, fun x => ?_⟩
    rw [byteAt_store_byte, BitVec.setWidth_eq_extractLsb' (by decide)]
  · rw [step_readIn ha hp, readInByte, inByte_eq]
    rfl
  · rw [step_readOut ha hp, readOutByte, outByte_eq]
    rfl

/-! ### Who raises E_IN_RANGE (R66) -/

/-- The errors of CONFIGURE's checks (R224). -/
theorem configureAct_error {p o : Nat} {k : BitVec 4} {w : Bool} {e : ErrorCode} (h : configureAct p o k w = .error e) :
    e ∈ [ErrorCode.cfgZeroSize, .cfgCapacity, .cfgKind, .cfgGeometry, .cfgOobBudget] := by
  unfold configureAct at h
  split at h
  · cases h; decide
  · split at h
    · cases h; decide
    · split at h
      · cases h; decide
      · unfold checkAct at h
        split at h
        · cases h; decide
        · split at h
          · cases h; decide
          · cases h

/-- The codec's one error (40_codec.md R132, R143). -/
theorem codecEncode_error {c : Codec} {data : Bytes} {e : ErrorCode} (h : codecEncode c data = .error e) :
    e = c.oversize := by
  cases c with
  | bch t =>
    simp only [codecEncode, bchEncodeOp] at h
    split at h <;> cases h
    rfl
  | reedSolomon =>
    simp only [codecEncode, rsEncode] at h
    split at h <;> cases h
    rfl

theorem oversize_ne_inRange (c : Codec) : c.oversize ≠ .inRange := by cases c <;> simp [Codec.oversize]

theorem codecEncode_ne_inRange (c : Codec) (data : Bytes) : codecEncode c data ≠ .error .inRange :=
  fun h => oversize_ne_inRange c (codecEncode_error h).symm

theorem chunkProgram_ne_inRange (a : Act) (u : Bytes) : chunkProgram a u ≠ .error .inRange := by
  unfold chunkProgram
  split
  · simp
  · split
    · rename_i e he
      rintro ⟨⟩
      exact codecEncode_ne_inRange _ _ he
    · simp

theorem pageChunks_ne_inRange (a : Act) (y : Bytes) (n : Nat) : pageChunks a y n ≠ .error .inRange := by
  induction n with
  | zero => simp [pageChunks]
  | succ n ih =>
    unfold pageChunks
    split
    · rename_i e he
      rintro ⟨⟩
      exact ih he
    · split
      · rename_i e he
        rintro ⟨⟩
        exact chunkProgram_ne_inRange _ _ he
      · simp

theorem pageProgram_ne_inRange (a : Act) (x : Bytes) : pageProgram a x ≠ .error .inRange := by
  unfold pageProgram
  split
  · simp
  · split
    · rename_i e he
      rintro ⟨⟩
      exact pageChunks_ne_inRange _ _ _ he
    · simp

/-- A data command under `a` never meets E_IN_RANGE: what its limit lets through fits in IN, and neither its size check
nor its function raises that error (R66). -/
structure DataCommand.AvoidsInRange (c : DataCommand) (a : Act) : Prop where
  limit_le : c.limit a ≤ inBufBytes
  oversize_ne : c.oversize a ≠ .inRange
  run_ne : ∀ x, c.run a x ≠ .error .inRange

/-- E_IN_RANGE is not among the errors of such a command. -/
theorem dataError_ne_inRange {c : DataCommand} {s : State} (hc : ∀ a, s.act = some a → c.AvoidsInRange a)
    {e : ErrorCode} {n : Nat} (h : DataError c s e n) : e ≠ .inRange := by
  rcases h with ⟨-, rfl, -⟩ | ⟨a, ha, ⟨-, rfl, -⟩ | ⟨hl, hb, -⟩ | ⟨-, -, hr, -⟩⟩
  · decide
  · exact (hc a ha).oversize_ne
  · have := (hc a ha).limit_le
    omega
  · rintro rfl
    exact (hc a ha).run_ne _ hr

theorem dataCommand_err_ne_inRange {c : DataCommand} {s : State} (hc : ∀ a, s.act = some a → c.AvoidsInRange a)
    (he : s.err = none) (op : BitVec 4) : (dataCommand c s).err ≠ some { code := .inRange, op := op } := by
  rcases dataCommand_cases c s with ⟨hne, -⟩ | ⟨-, e, n, hde, ht⟩ | ⟨-, a, r, -, -, -, -, ht⟩
  · exact absurd he hne
  · simp [ht, he, dataError_ne_inRange hc hde]
  · simp [ht, he]

theorem configureCommand_err_ne_inRange (s : State) (op : BitVec 4) :
    (configureCommand s).err ≠ some { code := .inRange, op := op } := by
  rcases configureCommand_cases s with ⟨a, -, ht⟩ | ⟨e, he, ht⟩
  · simp [ht]
  · have hne : e ≠ .inRange := by
      rintro rfl
      simpa using configureAct_error he
    simp [ht, hne]

/-- A page fits in IN (R9, R66). -/
theorem pageCommand_avoidsInRange {a : Act} (h : a.Legal) : pageCommand.AvoidsInRange a :=
  ⟨(legal_input h).1, by simp [pageCommand], pageProgram_ne_inRange a⟩

/-- A data unit fits in IN (R9, R66). -/
theorem chunkCommand_avoidsInRange {a : Act} (h : a.Legal) : chunkCommand.AvoidsInRange a :=
  ⟨(legal_input h).2, by simp [chunkCommand], chunkProgram_ne_inRange a⟩

/-- A Reed-Solomon message fits in IN (R9, R66). -/
theorem encodeCommand_avoidsInRange {a : Act} (h : a.codec = .reedSolomon) : encodeCommand.AvoidsInRange a where
  limit_le := by
    change a.codec.maxInput ≤ inBufBytes
    rw [h]
    exact rsMessageLength_le_inBufBytes
  oversize_ne := oversize_ne_inRange a.codec
  run_ne := codecEncode_ne_inRange a.codec

/-- Settles O26: by the command; CONFIGURE has errors of its own, and the inputs of the others fit in IN. -/
theorem inRangeOnlyFromBchEncode : Obligations.InRangeOnlyFromBchEncode := by
  intro i s t op he hlegal hrs hx
  cases i <;> cases hx
  case configure => exact configureCommand_err_ne_inRange s op
  case programPage => exact dataCommand_err_ne_inRange (fun a ha => pageCommand_avoidsInRange (hlegal a ha)) he op
  case programChunk => exact dataCommand_err_ne_inRange (fun a ha => chunkCommand_avoidsInRange (hlegal a ha)) he op
  case encode => exact dataCommand_err_ne_inRange (fun a ha => encodeCommand_avoidsInRange (hrs rfl a ha)) he op

end Sys2Proof.Machine
end

section
/-! SUPPORT. The encoding family (30_encoding.md): the decoder against the encoder, and the illegal CMD words. -/

open Sys2Proof

namespace Sys2Proof.Machine

/-! ### The decoder (R91, R92, R97) -/

/-- With RSVD = 0 the opcode map decides (R91). -/
theorem decode_of_rsvd_zero {w : Word} (h : rsvdField w = 0) : decode w = opcodeMap (opcodeField w) :=
  if_neg (not_not.mpr h)

/-- RSVD ≠ 0 is ILLEGAL whatever OPCODE says (R91, R97). -/
theorem decode_of_rsvd_ne_zero {w : Word} (h : rsvdField w ≠ 0) : decode w = .error .reservedBits :=
  if_pos h

/-- The CMD word of a command decodes to it (R91, R92). -/
@[simp] theorem decode_encode (i : Instr) : decode (encode i) = .ok i := by
  cases i <;> exact decode_of_rsvd_zero (by decide)

/-- A word that decodes to a command is that command's CMD word, and no other is (R91, R92). -/
theorem decode_eq_ok_iff {w : Word} {i : Instr} : decode w = .ok i ↔ w = encode i := by
  constructor
  · exact eq_encode_of_decode
  · rintro rfl
    exact decode_encode i

/-- ILLEGAL words are those that are no command's CMD word (R97). -/
theorem decode_error_iff (w : Word) : (∃ e, decode w = .error e) ↔ ¬ ∃ i, w = encode i := by
  simp only [← decode_eq_ok_iff]
  cases decode w <;> simp

/-- The CMD words are 1 to 4 (R92). -/
theorem exists_eq_encode_iff (w : Word) : (∃ i, w = encode i) ↔ 1 ≤ w.toNat ∧ w.toNat ≤ 4 := by
  constructor
  · rintro ⟨i, rfl⟩
    cases i <;> decide
  · rintro ⟨hlow, hhigh⟩
    obtain h | h | h | h : w.toNat = 1 ∨ w.toNat = 2 ∨ w.toNat = 3 ∨ w.toNat = 4 := by omega
    · exact ⟨.configure, BitVec.eq_of_toNat_eq h⟩
    · exact ⟨.programPage, BitVec.eq_of_toNat_eq h⟩
    · exact ⟨.programChunk, BitVec.eq_of_toNat_eq h⟩
    · exact ⟨.encode, BitVec.eq_of_toNat_eq h⟩

/-- Settles O2: one direction rebuilds the word from RSVD and OPCODE, the other is the round trip of each command. -/
theorem decodeIffEncode : Obligations.DecodeIffEncode := fun _ _ => decode_eq_ok_iff

/-- Settles O3: the illegal words are those that are no CMD word, and the CMD words are 1 to 4. -/
theorem illegalWordsAreThoseOfR97 : Obligations.IllegalWordsAreThoseOfR97 := by
  intro w
  rw [decode_error_iff, exists_eq_encode_iff]
  omega

/-- Settles O1: four CMD words by the round trip, three unassigned opcodes, two words with a reserved bit set. -/
theorem specWordsDecode : Obligations.SpecWordsDecode :=
  ⟨decode_encode .configure, decode_encode .programPage, decode_encode .programChunk, decode_encode .encode,
    decode_of_rsvd_zero (by decide), decode_of_rsvd_zero (by decide), decode_of_rsvd_zero (by decide),
    decode_of_rsvd_ne_zero (by decide), decode_of_rsvd_ne_zero (by decide)⟩

end Sys2Proof.Machine
end

section
/-! SUPPORT. The codec family (40_codec.md): GF(2^10) is a field and α generates it, a polynomial has no more roots than
coefficients, the Reed-Solomon parity is the one remainder whose codeword has the roots α^1 to α^8, and what follows for
RS_ENCODE, its packing, and the ENCODE command. -/

open Sys2Proof

namespace Sys2Proof.Machine

/-! ### Multiplication by x (R126) -/

/-- Selecting an element by a bit is additive in the bit. -/
theorem ite_bit_xor (p q : Bool) (a : Sym) :
    (if (p ^^ q) then a else 0) = (if p then a else 0) ^^^ (if q then a else 0) := by
  cases p <;> cases q <;> simp

/-- Selecting an element by a bit is additive in the element. -/
theorem ite_xor_zero (p : Bool) (a b : Sym) :
    (if p then a ^^^ b else 0) = (if p then a else 0) ^^^ (if p then b else 0) := by
  cases p <;> simp

theorem getLsbD_ite_zero (p : Bool) (a : Sym) (i : Nat) :
    (if p then a else 0).getLsbD i = (p && a.getLsbD i) := by
  cases p <;> simp

/-- Reduction by 0x409 inside ten bits: the bit shifted out comes back as 0x009. -/
theorem xtime_eq (a : Sym) : xtime a = a <<< 1 ^^^ if a.getLsbD 9 then 0x009 else 0 := by
  have carry : (a.setWidth 11 <<< 1).getLsbD 10 = a.getLsbD 9 := by simp
  have shift : (a.setWidth 11 <<< 1).setWidth 10 = a <<< 1 := by
    apply BitVec.eq_of_getLsbD_eq
    intro i hi
    simp [hi]
  simp only [xtime, carry]
  split
  · rw [BitVec.setWidth_xor, shift]
    rfl
  · rw [shift, xor_zero]

theorem xtime_xor (a b : Sym) : xtime (a ^^^ b) = xtime a ^^^ xtime b := by
  simp only [xtime_eq, BitVec.shiftLeft_xor_distrib, BitVec.getLsbD_xor, ite_bit_xor]
  ac_rfl

/-! ### gfmul is a commutative and associative product, bilinear over ⊕ (R126) -/

theorem gfmulTurn_eq (b r a : Sym) (i : Nat) :
    gfmulTurn b (r, a) i = (r ^^^ if b.getLsbD i then a else 0, xtime a) := by
  cases h : b.getLsbD i <;> simp [gfmulTurn, h]

theorem gfmulTurn_fold_xor_right (b c : Sym) (l : List Nat) (r r' a : Sym) :
    (l.foldl (gfmulTurn (b ^^^ c)) (r ^^^ r', a)).1 =
      (l.foldl (gfmulTurn b) (r, a)).1 ^^^ (l.foldl (gfmulTurn c) (r', a)).1 := by
  induction l generalizing r r' a with
  | nil => rfl
  | cons i l ih =>
    simp only [List.foldl_cons, gfmulTurn_eq, BitVec.getLsbD_xor, ite_bit_xor, ← ih]
    congr 3
    ac_rfl

theorem gfmulTurn_fold_xor_left (b : Sym) (l : List Nat) (r r' a a' : Sym) :
    (l.foldl (gfmulTurn b) (r ^^^ r', a ^^^ a')).1 =
      (l.foldl (gfmulTurn b) (r, a)).1 ^^^ (l.foldl (gfmulTurn b) (r', a')).1 := by
  induction l generalizing r r' a a' with
  | nil => rfl
  | cons i l ih =>
    simp only [List.foldl_cons, gfmulTurn_eq, ite_xor_zero, xtime_xor, ← ih]
    congr 3
    ac_rfl

theorem gfmulTurn_fold_xtime (b : Sym) (l : List Nat) (r a : Sym) :
    (l.foldl (gfmulTurn b) (xtime r, xtime a)).1 = xtime (l.foldl (gfmulTurn b) (r, a)).1 := by
  induction l generalizing r a with
  | nil => rfl
  | cons i l ih => simp only [List.foldl_cons, gfmulTurn, ← xtime_xor, ← apply_ite xtime, ih]

theorem gfmul_xor_right (a b c : Sym) : gfmul a (b ^^^ c) = gfmul a b ^^^ gfmul a c :=
  gfmulTurn_fold_xor_right b c (List.range 10) 0 0 a

theorem gfmul_xor_left (a b c : Sym) : gfmul (a ^^^ b) c = gfmul a c ^^^ gfmul b c :=
  gfmulTurn_fold_xor_left c (List.range 10) 0 0 a b

theorem gfmul_xtime_left (a b : Sym) : gfmul (xtime a) b = xtime (gfmul a b) :=
  gfmulTurn_fold_xtime b (List.range 10) 0 a

@[simp] theorem gfmul_one (a : Sym) : gfmul a 1#10 = a := by
  simp [gfmul, List.range, List.range.loop, gfmulTurn_eq]

/-- Started at 1, the loop adds up the bits of b, each in its place. -/
@[simp] theorem one_gfmul (b : Sym) : gfmul 1#10 b = b := by
  apply BitVec.eq_of_getLsbD_eq
  intro i hi
  simp only [gfmul, List.range, List.range.loop, List.foldl_cons, List.foldl_nil, gfmulTurn_eq, BitVec.getLsbD_xor,
    getLsbD_ite_zero]
  interval_cases i <;> simp [xtime_eq]

@[simp] theorem gfmul_zero (a : Sym) : gfmul a 0#10 = 0#10 := by
  simpa using gfmul_xor_right a 0 0

/-- Multiplication by x and addition reach every element from 1, since the loop does from its start 1 · a. -/
theorem sym_induction {P : Sym → Prop} (zero : P 0) (one : P 1) (mulX : ∀ a, P a → P (xtime a))
    (add : ∀ a b, P a → P b → P (a ^^^ b)) (a : Sym) : P a := by
  have fold (l : List Nat) : ∀ r x : Sym, P r → P x → P (l.foldl (gfmulTurn a) (r, x)).1 := by
    induction l with
    | nil => exact fun r x hr _ => hr
    | cons i l ih =>
      intro r x hr hx
      rw [List.foldl_cons, gfmulTurn_eq]
      refine ih _ _ (add _ _ hr ?_) (mulX x hx)
      split
      · exact hx
      · exact zero
  rw [← one_gfmul a]
  exact fold _ _ _ zero one

theorem gfmul_xtime_right (a b : Sym) : gfmul a (xtime b) = xtime (gfmul a b) := by
  induction a using sym_induction with
  | zero => simp
  | one => simp
  | mulX a ih => simp only [gfmul_xtime_left, ih]
  | add a c iha ihc => simp only [gfmul_xor_left, xtime_xor, iha, ihc]

theorem gfmul_comm (a b : Sym) : gfmul a b = gfmul b a := by
  induction b using sym_induction with
  | zero => simp
  | one => simp
  | mulX b ih => rw [gfmul_xtime_right, gfmul_xtime_left, ih]
  | add b c ihb ihc => rw [gfmul_xor_right, gfmul_xor_left, ihb, ihc]

theorem gfmul_assoc (a b c : Sym) : gfmul (gfmul a b) c = gfmul a (gfmul b c) := by
  induction c using sym_induction with
  | zero => simp
  | one => simp
  | mulX c ih => simp only [gfmul_xtime_right, ih]
  | add c d ihc ihd => simp only [gfmul_xor_right, ihc, ihd]

theorem gfmul_alpha (a : Sym) : gfmul a alpha = xtime a := by
  have alpha_eq : alpha = xtime 1#10 := by decide
  rw [alpha_eq, gfmul_xtime_right, gfmul_one]

/-! ### Powers (R127) -/

/-- x^n, formed as R127 forms the powers of α. -/
def gfpow (x : Sym) : Nat → Sym
  | 0 => 1#10
  | n + 1 => gfmul (gfpow x n) x

theorem alphaPow_eq_gfpow (n : Nat) : alphaPow n = gfpow alpha n := by
  induction n with
  | zero => rfl
  | succ n ih => rw [alphaPow, gfpow, ih]

theorem gfpow_add (x : Sym) (m n : Nat) : gfpow x (m + n) = gfmul (gfpow x m) (gfpow x n) := by
  induction n with
  | zero => simp [gfpow]
  | succ n ih => rw [← Nat.add_assoc, gfpow, ih, gfmul_assoc, gfpow]

theorem gfpow_mul (x : Sym) (m n : Nat) : gfpow x (m * n) = gfpow (gfpow x m) n := by
  induction n with
  | zero => rfl
  | succ n ih => rw [Nat.mul_succ, gfpow_add, ih, gfpow]

theorem alphaPow_add (m n : Nat) : alphaPow (m + n) = gfmul (alphaPow m) (alphaPow n) := by
  simp only [alphaPow_eq_gfpow, gfpow_add]

theorem alphaPow_mul (m n : Nat) : alphaPow (m * n) = gfpow (alphaPow m) n := by
  simp only [alphaPow_eq_gfpow, gfpow_mul]

/-! ### The order of α (R126, R127) -/

theorem alphaPow_33_ne_one : alphaPow 33 ≠ 1#10 := by
  rw [alphaPow_mul 3 11]
  decide +kernel

theorem alphaPow_93_ne_one : alphaPow 93 ≠ 1#10 := by
  rw [alphaPow_mul 3 31]
  decide +kernel

theorem alphaPow_341_ne_one : alphaPow 341 ≠ 1#10 := by
  rw [alphaPow_mul 11 31]
  decide +kernel

theorem alphaPow_1023 : alphaPow 1023 = 1#10 := by
  rw [alphaPow_mul (11 * 3) 31, alphaPow_mul 11 3]
  decide +kernel

theorem alphaPow_eq_iterate (n : Nat) : alphaPow n = xtime^[n] 1#10 := by
  induction n with
  | zero => rfl
  | succ n ih => rw [alphaPow, gfmul_alpha, ih, Function.iterate_succ_apply']

/-- The order of α is the period of multiplication by x at 1. -/
theorem alphaPow_eq_one_iff_minimalPeriod_dvd (n : Nat) :
    alphaPow n = 1#10 ↔ Function.minimalPeriod xtime 1#10 ∣ n := by
  rw [← Function.isPeriodicPt_iff_minimalPeriod_dvd, alphaPow_eq_iterate]
  rfl

/-- The period divides 1023 = 3 · 11 · 31 and none of its maximal proper divisors 33, 93 and 341. -/
theorem minimalPeriod_xtime : Function.minimalPeriod xtime 1#10 = 1023 := by
  have h33 := mt (alphaPow_eq_one_iff_minimalPeriod_dvd 33).mpr alphaPow_33_ne_one
  have h93 := mt (alphaPow_eq_one_iff_minimalPeriod_dvd 93).mpr alphaPow_93_ne_one
  have h341 := mt (alphaPow_eq_one_iff_minimalPeriod_dvd 341).mpr alphaPow_341_ne_one
  have h1023 : Function.minimalPeriod xtime 1#10 ∈ Nat.divisors 1023 :=
    Nat.mem_divisors.mpr ⟨(alphaPow_eq_one_iff_minimalPeriod_dvd 1023).mp alphaPow_1023, by decide⟩
  generalize Function.minimalPeriod xtime 1#10 = p at *
  simp only [Nat.divisors_ofNat, Finset.mem_insert, Finset.mem_singleton] at h1023
  rcases h1023 with rfl | rfl | rfl | rfl | rfl | rfl | rfl | rfl <;> omega

theorem alphaPow_eq_one_iff (n : Nat) : alphaPow n = 1#10 ↔ 1023 ∣ n := by
  rw [alphaPow_eq_one_iff_minimalPeriod_dvd, minimalPeriod_xtime]

theorem alphaPow_injOn : Set.InjOn alphaPow (Finset.range 1023) := by
  have h := Function.iterate_injOn_Iio_minimalPeriod (f := xtime) (x := 1#10)
  simpa only [minimalPeriod_xtime, ← alphaPow_eq_iterate, Finset.coe_range] using h

/-- Settles O31: by the period of multiplication by x. -/
theorem alphaIsPrimitive : Obligations.AlphaIsPrimitive :=
  ⟨alphaPow_1023, fun n hpos hlt h => absurd (Nat.le_of_dvd hpos ((alphaPow_eq_one_iff n).mp h)) (by omega)⟩

/-! ### Inverses (R126) -/

theorem alphaPow_ne_zero (n : Nat) : alphaPow n ≠ 0#10 := by
  intro h
  have hmul : alphaPow (n * 1023) = 0#10 := by rw [Nat.mul_succ, alphaPow_add, h, gfmul_zero]
  rw [(alphaPow_eq_one_iff _).mpr (Nat.dvd_mul_left _ _)] at hmul
  exact absurd hmul (by decide)

/-- The 1023 powers of α are distinct, so they are all 1023 nonzero elements. -/
theorem exists_alphaPow_eq {a : Sym} (h : a ≠ 0#10) : ∃ n < 1023, alphaPow n = a := by
  have hcard : (Finset.univ.erase (0#10 : Sym)).card ≤ ((Finset.range 1023).image alphaPow).card := by
    rw [Finset.card_image_of_injOn alphaPow_injOn, Finset.card_range, Finset.card_erase_of_mem (Finset.mem_univ _),
      Finset.card_univ, ← FinEnum.card_eq_fintypeCard, FinEnum.card_bitVec]
    decide
  have hsub : (Finset.range 1023).image alphaPow ⊆ Finset.univ.erase 0#10 := by
    intro x hx
    obtain ⟨n, -, rfl⟩ := Finset.mem_image.mp hx
    simpa using alphaPow_ne_zero n
  have hmem : a ∈ (Finset.range 1023).image alphaPow := by
    rw [Finset.eq_of_subset_of_card_le hsub hcard]
    simpa using h
  simpa using hmem

/-- The inverse of α^n is α^(1023 − n). -/
theorem exists_gfmul_eq_one {a : Sym} (h : a ≠ 0#10) : ∃ b, gfmul a b = 1#10 := by
  obtain ⟨n, hn, rfl⟩ := exists_alphaPow_eq h
  refine ⟨alphaPow (1023 - n), ?_⟩
  rw [← alphaPow_add, show n + (1023 - n) = 1023 by omega, alphaPow_1023]

/-- There are no zero divisors. -/
theorem eq_zero_of_gfmul_eq_zero {a b : Sym} (h : gfmul a b = 0#10) (ha : a ≠ 0#10) : b = 0#10 := by
  obtain ⟨c, hc⟩ := exists_gfmul_eq_one ha
  calc b = gfmul (gfmul c a) b := by rw [gfmul_comm c, hc, one_gfmul]
    _ = 0#10 := by rw [gfmul_assoc, h, gfmul_zero]

/-- Settles O30: the laws by induction on the elements, the inverses as powers of α, and α as one turn of the loop. -/
theorem gfmulIsAFieldMultiplication : Obligations.GfmulIsAFieldMultiplication :=
  ⟨fun a b c => ⟨gfmul_comm a b, gfmul_assoc a b c, gfmul_xor_right a b c, gfmul_one a⟩,
    fun _ h => exists_gfmul_eq_one h, fun a => (gfmul_alpha a).trans (xtime_eq a)⟩

/-! ### Values of polynomials, highest degree first (R129) -/

@[simp] theorem polyEval_nil (x : Sym) : polyEval [] x = 0#10 := rfl

@[simp] theorem polyEval_singleton (c x : Sym) : polyEval [c] x = c := by simp [polyEval]

theorem polyEval_concat (p : List Sym) (c x : Sym) : polyEval (p ++ [c]) x = gfmul (polyEval p x) x ^^^ c := by
  simp [polyEval]

/-- One step of Horner's rule. -/
theorem polyEval_cons_cons (a b : Sym) (p : List Sym) (x : Sym) :
    polyEval (a :: b :: p) x = polyEval ((gfmul a x ^^^ b) :: p) x := by simp [polyEval]

theorem polyEval_append (p q : List Sym) (x : Sym) :
    polyEval (p ++ q) x = gfmul (polyEval p x) (gfpow x q.length) ^^^ polyEval q x := by
  induction q using List.reverseRecOn with
  | nil => simp [gfpow]
  | append_singleton q c ih =>
    rw [← List.append_assoc, polyEval_concat, ih, polyEval_concat, gfmul_xor_left, List.length_append, gfmul_assoc,
      BitVec.xor_assoc]
    rfl

theorem polyEval_cons (c : Sym) (p : List Sym) (x : Sym) :
    polyEval (c :: p) x = gfmul c (gfpow x p.length) ^^^ polyEval p x := by
  rw [← List.singleton_append, polyEval_append, polyEval_singleton]

@[simp] theorem polyEval_zero_cons (p : List Sym) (x : Sym) : polyEval (0#10 :: p) x = polyEval p x := by
  simp [polyEval_cons]

theorem polyEval_zipWith_xor {p q : List Sym} (h : p.length = q.length) (x : Sym) :
    polyEval (List.zipWith (· ^^^ ·) p q) x = polyEval p x ^^^ polyEval q x := by
  induction p generalizing q with
  | nil => simp [List.eq_nil_of_length_eq_zero h.symm]
  | cons c p ih =>
    cases q with
    | nil => simp at h
    | cons d q =>
      have h : p.length = q.length := by simpa using h
      simp only [List.zipWith_cons_cons, polyEval_cons, ih h, gfmul_xor_left, List.length_zipWith, ← h, Nat.min_self]
      ac_rfl

theorem polyEval_map_gfmul (c : Sym) (p : List Sym) (x : Sym) :
    polyEval (p.map (gfmul c)) x = gfmul c (polyEval p x) := by
  induction p with
  | nil => simp
  | cons d p ih =>
    rw [List.map_cons, polyEval_cons, ih, List.length_map, gfmul_assoc, ← gfmul_xor_right, ← polyEval_cons]

/-! ### The generator (R128) -/

theorem polyEval_mulRoot (p : List Sym) (root x : Sym) :
    polyEval (mulRoot p root) x = gfmul (polyEval p x) (x ^^^ root) := by
  have hmap : p.map (fun c => gfmul c root) = p.map (gfmul root) := List.map_congr_left fun c _ => gfmul_comm c root
  rw [mulRoot, hmap, polyEval_zipWith_xor (by simp), polyEval_concat, gfmul_xor_right, gfmul_comm _ root]
  simp [polyEval_map_gfmul]

/-- The product of the first n root factors vanishes at each of their roots. -/
theorem polyEval_rootProduct {i n : Nat} (hi : 1 ≤ i) (hn : i ≤ n) :
    polyEval (rootProduct n) (alphaPow i) = 0#10 := by
  induction n with
  | zero => omega
  | succ n ih =>
    rw [rootProduct, polyEval_mulRoot]
    by_cases h : i = n + 1
    · rw [h, BitVec.xor_self, gfmul_zero]
    · rw [ih (by omega), gfmul_zero_left]

theorem generator_eq_rootProduct : generator = rootProduct 8 := by decide +kernel

theorem polyEval_generator {i : Nat} (hi : 1 ≤ i) (h8 : i ≤ 8) : polyEval generator (alphaPow i) = 0#10 := by
  rw [generator_eq_rootProduct]
  exact polyEval_rootProduct hi h8

/-- Settles O32: by expanding the product, whose factors give the roots. -/
theorem generatorHasItsRoots : Obligations.GeneratorHasItsRoots :=
  ⟨generator_eq_rootProduct, rfl, fun _ => polyEval_generator⟩

/-! ### A polynomial has no more roots than coefficients -/

/-- Synthetic division of the polynomial a :: p by (x ⊕ root): the quotient. -/
def deflate (root a : Sym) : List Sym → List Sym
  | [] => []
  | b :: p => a :: deflate root (gfmul a root ^^^ b) p

@[simp] theorem deflate_length (root a : Sym) (p : List Sym) : (deflate root a p).length = p.length := by
  induction p generalizing a with
  | nil => rfl
  | cons b p ih => simp [deflate, ih]

/-- Division with remainder: dividing by (x ⊕ root) leaves the value at the root. -/
theorem polyEval_deflate (root a : Sym) (p : List Sym) (x : Sym) :
    polyEval (a :: p) x = gfmul (x ^^^ root) (polyEval (deflate root a p) x) ^^^ polyEval (a :: p) root := by
  induction p generalizing a with
  | nil => simp [deflate]
  | cons b p ih =>
    have lead : gfmul a x ^^^ b = gfmul (x ^^^ root) a ^^^ (gfmul a root ^^^ b) := by
      rw [gfmul_xor_left, gfmul_comm x, gfmul_comm root, BitVec.xor_assoc, xor_cancel_left]
    calc polyEval (a :: b :: p) x
        = gfmul (gfmul (x ^^^ root) a) (gfpow x p.length) ^^^ polyEval ((gfmul a root ^^^ b) :: p) x := by
          rw [polyEval_cons_cons, lead, polyEval_cons, gfmul_xor_left, BitVec.xor_assoc, ← polyEval_cons]
      _ = gfmul (x ^^^ root) (gfmul a (gfpow x p.length) ^^^ polyEval (deflate root (gfmul a root ^^^ b) p) x) ^^^
            polyEval ((gfmul a root ^^^ b) :: p) root := by
          rw [ih, gfmul_assoc, gfmul_xor_right, BitVec.xor_assoc]
      _ = _ := by rw [polyEval_cons_cons a b p root, deflate, polyEval_cons a (deflate _ _ _), deflate_length]

theorem eq_zero_of_deflate_eq_zero {root a : Sym} {p : List Sym} (hroot : polyEval (a :: p) root = 0#10)
    (hq : ∀ c ∈ deflate root a p, c = 0#10) : ∀ c ∈ a :: p, c = 0#10 := by
  induction p generalizing a with
  | nil => simpa using hroot
  | cons b p ih =>
    obtain ⟨rfl, hq⟩ := List.forall_mem_cons.mp hq
    rw [gfmul_zero_left, BitVec.zero_xor] at hq
    rw [polyEval_zero_cons] at hroot
    exact List.forall_mem_cons.mpr ⟨rfl, ih hroot hq⟩

/-- A polynomial with at least as many roots as coefficients is zero: divide by one root after the other. -/
theorem eq_zero_of_roots {roots p : List Sym} (hlen : p.length ≤ roots.length) (hnodup : roots.Nodup)
    (hroots : ∀ x ∈ roots, polyEval p x = 0#10) : ∀ c ∈ p, c = 0#10 := by
  induction roots generalizing p with
  | nil => simp [List.eq_nil_of_length_eq_zero (Nat.le_zero.mp hlen)]
  | cons root roots ih =>
    cases p with
    | nil => simp
    | cons a p =>
      obtain ⟨hnew, hnodup⟩ := List.nodup_cons.mp hnodup
      obtain ⟨hroot, hroots⟩ := List.forall_mem_cons.mp hroots
      refine eq_zero_of_deflate_eq_zero hroot (ih (by simpa using hlen) hnodup fun x hx => ?_)
      have hdiv := polyEval_deflate root a p x
      rw [hroots x hx, hroot, BitVec.xor_zero] at hdiv
      refine eq_zero_of_gfmul_eq_zero hdiv.symm fun h => hnew ?_
      rwa [← BitVec.xor_eq_zero_iff.mp h]

/-- Eight symbols are fixed by their values at the generator's roots. -/
theorem eq_of_polyEval_eq {p q : List Sym} (hp : p.length = 8) (hq : q.length = 8)
    (h : ∀ i, 1 ≤ i → i ≤ 8 → polyEval p (alphaPow i) = polyEval q (alphaPow i)) : p = q := by
  have hnodup : ((List.range' 1 8).map alphaPow).Nodup := by
    refine List.Nodup.map_on (fun i hi j hj => alphaPow_injOn ?_ ?_) List.nodup_range'
    all_goals
      simp only [List.mem_range'_1, Finset.coe_range, Set.mem_Iio] at hi hj ⊢
      omega
  have hroots : ∀ x ∈ (List.range' 1 8).map alphaPow, polyEval (List.zipWith (· ^^^ ·) p q) x = 0#10 := by
    intro x hx
    obtain ⟨i, hi, rfl⟩ := List.mem_map.mp hx
    rw [List.mem_range'_1] at hi
    rw [polyEval_zipWith_xor (by omega), h i (by omega) (by omega), BitVec.xor_self]
  have hzero := eq_zero_of_roots (by simp [hp, hq]) hnodup hroots
  refine List.ext_getElem (by omega) fun k hkp hkq => ?_
  have hk : k < (List.zipWith (· ^^^ ·) p q).length := by simp; omega
  simpa using hzero _ (List.getElem_mem hk)

/-! ### The remainder (R129, R132) -/

/-- One turn of R132's loop multiplies the remainder by x and adds s·x^8, seen at a root of the generator. -/
theorem polyEval_rsTurn {r : List Sym} (hr : r.length = 8) (s : Sym) {x : Sym} (hx : polyEval generator x = 0#10) :
    polyEval (rsTurn r s) x = gfmul (polyEval r x) x ^^^ gfmul s (gfpow x 8) := by
  obtain ⟨c, r, rfl⟩ := List.exists_cons_of_length_eq_add_one hr
  have hr : r.length = 7 := by simpa using hr
  have hreduce : polyEval generator.tail x = gfpow x 8 := by
    have hlead : polyEval generator x = gfmul 1#10 (gfpow x 8) ^^^ polyEval generator.tail x := polyEval_cons _ _ x
    rw [hx, one_gfmul, eq_comm, BitVec.xor_eq_zero_iff] at hlead
    exact hlead.symm
  calc polyEval (rsTurn (c :: r) s) x
      = gfmul (polyEval r x) x ^^^ gfmul (s ^^^ c) (gfpow x 8) := by
        rw [rsTurn, polyEval_zipWith_xor (by simp [hr, generator]), polyEval_map_gfmul, hreduce]
        simp [polyEval_concat]
    _ = gfmul (polyEval (c :: r) x) x ^^^ gfmul s (gfpow x 8) := by
        have hpow : gfpow x 8 = gfmul (gfpow x 7) x := rfl
        rw [polyEval_cons, hr, hpow, gfmul_xor_left, gfmul_xor_left, gfmul_assoc]
        ac_rfl

/-- At the generator's roots the remainder has the value of S(x)·x^8 (R129). -/
theorem polyEval_rsRemainder (ss : List Sym) {x : Sym} (hx : polyEval generator x = 0#10) :
    polyEval (rsRemainder ss) x = gfmul (polyEval ss x) (gfpow x 8) := by
  induction ss using List.reverseRecOn with
  | nil => simp [rsRemainder, rsZero, List.replicate]
  | append_singleton ss s ih =>
    have hturn : rsRemainder (ss ++ [s]) = rsTurn (rsRemainder ss) s := by simp [rsRemainder]
    rw [hturn, polyEval_rsTurn (rsRemainder_length ss) s hx, ih, polyEval_concat, gfmul_xor_left, gfmul_assoc,
      gfmul_comm (gfpow x 8), gfmul_assoc]

/-- Eight symbols are the parity of a message exactly when the codeword vanishes at the generator's roots (R129). -/
theorem eq_rsRemainder_iff {ss parity : List Sym} (hlen : parity.length = 8) :
    parity = rsRemainder ss ↔ ∀ i, 1 ≤ i → i ≤ 8 → polyEval (ss ++ parity) (alphaPow i) = 0#10 := by
  have hvalue {i : Nat} (hi : 1 ≤ i) (h8 : i ≤ 8) : polyEval (ss ++ parity) (alphaPow i) =
      polyEval (rsRemainder ss) (alphaPow i) ^^^ polyEval parity (alphaPow i) := by
    rw [polyEval_append, hlen, polyEval_rsRemainder ss (polyEval_generator hi h8)]
  constructor
  · intro h i hi h8
    rw [hvalue hi h8, h, BitVec.xor_self]
  · intro h
    refine eq_of_polyEval_eq hlen (rsRemainder_length ss) fun i hi h8 => ?_
    have hzero := h i hi h8
    rw [hvalue hi h8, BitVec.xor_eq_zero_iff] at hzero
    exact hzero.symm

theorem polyEval_codeword (ss : List Sym) {i : Nat} (hi : 1 ≤ i) (h8 : i ≤ 8) :
    polyEval (ss ++ rsRemainder ss) (alphaPow i) = 0#10 :=
  (eq_rsRemainder_iff (rsRemainder_length ss)).mp rfl i hi h8

/-- Settles O34: the parity symbols are the remainder of the padded message. -/
theorem codewordHasTheRoots : Obligations.CodewordHasTheRoots := by
  intro data hdata
  refine ⟨rsParity data, rsRemainder_length _, ?_, fun i hi h8 => polyEval_codeword (rsMessage data) hi h8⟩
  rw [rsEncode_ok hdata, rsParity_eq]

/-! ### Packing (R131, R103) -/

/-- One turn of PACK10's loop puts a symbol in bits 9:0, below the bits already packed. -/
theorem getLsbD_shift_or (v : BitVec 80) (c : Sym) {i : Nat} (hi : i < 80) :
    (v <<< 10 ||| c.setWidth 80).getLsbD i = if i < 10 then c.getLsbD i else v.getLsbD (i - 10) := by
  by_cases h : i < 10
  · simp [hi, h]
  · simp [hi, h, BitVec.getLsbD_of_ge c i (by omega), show i - 10 < 80 by omega]

/-- Bit i of the packed value is bit i mod 10 of symbol i div 10, counted from the last (R131). -/
theorem getLsbD_packBits (p : List Sym) {i : Nat} (hi : i < 80) :
    (packBits p).getLsbD i = (p.reverse.getD (i / 10) 0).getLsbD (i % 10) := by
  induction p using List.reverseRecOn generalizing i with
  | nil => simp [packBits]
  | append_singleton p c ih =>
    have hturn : packBits (p ++ [c]) = packBits p <<< 10 ||| c.setWidth 80 := by simp [packBits]
    rw [hturn, getLsbD_shift_or _ _ hi, List.reverse_concat]
    by_cases h : i < 10
    · rw [if_pos h, Nat.div_eq_of_lt h, Nat.mod_eq_of_lt h, List.getD_cons_zero]
    · rw [if_neg h, ih (by omega), show i / 10 = (i - 10) / 10 + 1 by omega,
        show i % 10 = (i - 10) % 10 by omega, List.getD_cons_succ]

/-- Bits inside one symbol are that symbol's (R131). -/
theorem extractLsb'_packBits (p : List Sym) (k o len : Nat) (hk : k < 8 := by decide)
    (ho : o + len ≤ 10 := by decide) :
    (packBits p).extractLsb' (10 * k + o) len = (p.reverse.getD k 0).extractLsb' o len := by
  apply BitVec.eq_of_getLsbD_eq
  intro j hj
  rw [BitVec.getLsbD_extractLsb', BitVec.getLsbD_extractLsb', getLsbD_packBits p (by omega),
    show (10 * k + o + j) / 10 = k by omega, show (10 * k + o + j) % 10 = o + j by omega]

/-- Bits across two symbols are low bits of the earlier one, then high bits of the later one (R131). -/
theorem extractLsb'_packBits_across (p : List Sym) (k o hi lo : Nat) (hk : k < 7 := by decide)
    (hlo : o + lo = 10 := by decide) (hhi : hi ≤ 10 := by decide) :
    (packBits p).extractLsb' (10 * k + o) (hi + lo) =
      (p.reverse.getD (k + 1) 0).extractLsb' 0 hi ++ (p.reverse.getD k 0).extractLsb' o lo := by
  rw [← extractLsb'_packBits p k o lo (by omega) hlo.le, ← extractLsb'_packBits p (k + 1) 0 hi (by omega) (by omega),
    BitVec.extractLsb'_append_extractLsb'_eq_extractLsb' (by omega)]

/-- Settles O33: four bytes lie inside a symbol, six across two. -/
theorem packedBitPositions : Obligations.PackedBitPositions := by
  intro p0 p1 p2 p3 p4 p5 p6 p7
  simp only [pack10, List.range, List.range.loop, List.map_cons, List.map_nil, List.cons.injEq, and_true]
  exact ⟨extractLsb'_packBits _ 7 2 8, extractLsb'_packBits_across _ 6 4 2 6, extractLsb'_packBits_across _ 5 6 4 4,
    extractLsb'_packBits_across _ 4 8 6 2, extractLsb'_packBits _ 4 0 8,
    extractLsb'_packBits _ 3 2 8, extractLsb'_packBits_across _ 2 4 2 6, extractLsb'_packBits_across _ 1 6 4 4,
    extractLsb'_packBits_across _ 0 8 6 2, extractLsb'_packBits _ 0 0 8⟩

theorem getD_reverse_zipWith_xor {p q : List Sym} (h : p.length = q.length) (k : Nat) :
    (List.zipWith (· ^^^ ·) p q).reverse.getD k 0 = p.reverse.getD k 0 ^^^ q.reverse.getD k 0 := by
  rw [List.reverse_zipWith h]
  by_cases hk : k < p.length <;> simp [hk, h ▸ hk]

theorem packBits_zipWith_xor {p q : List Sym} (h : p.length = q.length) :
    packBits (List.zipWith (· ^^^ ·) p q) = packBits p ^^^ packBits q := by
  apply BitVec.eq_of_getLsbD_eq
  intro i hi
  simp only [BitVec.getLsbD_xor, getLsbD_packBits _ hi, getD_reverse_zipWith_xor h]

theorem pack10_zipWith_xor {p q : List Sym} (h : p.length = q.length) :
    pack10 (List.zipWith (· ^^^ ·) p q) = List.zipWith (· ^^^ ·) (pack10 p) (pack10 q) := by
  simp [pack10, packBits_zipWith_xor h, BitVec.extractLsb'_xor, List.zipWith_map]

/-! ### Laws of RS_ENCODE (R133) -/

theorem toSymbols_rep (n : Nat) (b : Byte) : toSymbols (rep n b) = List.replicate n (b.setWidth 10) :=
  List.map_replicate

theorem toSymbols_zipWith_xor (a b : Bytes) :
    toSymbols (List.zipWith (· ^^^ ·) a b) = List.zipWith (· ^^^ ·) (toSymbols a) (toSymbols b) := by
  simp [toSymbols, List.map_zipWith, List.zipWith_map]

/-- The remainder is additive, because the sum of two codewords has the roots of both. -/
theorem rsRemainder_zipWith_xor {ss ts : List Sym} (h : ss.length = ts.length) :
    rsRemainder (List.zipWith (· ^^^ ·) ss ts) = List.zipWith (· ^^^ ·) (rsRemainder ss) (rsRemainder ts) := by
  have hs := rsRemainder_length ss
  have ht := rsRemainder_length ts
  refine ((eq_rsRemainder_iff (by simp [hs, ht])).mpr fun i hi h8 => ?_).symm
  rw [← List.zipWith_append h, polyEval_zipWith_xor (by simp [h, hs, ht]), polyEval_codeword ss hi h8,
    polyEval_codeword ts hi h8, BitVec.xor_self]

/-- Settles O35: the symbols, the remainder and the packing are each additive. -/
theorem rsEncodeIsLinear : Obligations.RsEncodeIsLinear := by
  refine ⟨fun a b hab ha => ⟨_, _, rsEncode_ok ha, rsEncode_ok (hab ▸ ha), ?_⟩, fun n hn => ?_⟩
  · rw [rsEncode_ok (by simp; omega), toSymbols_zipWith_xor, rsRemainder_zipWith_xor (by simpa [toSymbols] using hab),
      pack10_zipWith_xor (by simp [rsRemainder_length])]
  · have hzero := rsRemainder_leading_zeros n []
    rw [List.append_nil] at hzero
    rw [rsEncode_ok ((rep_length n 0x00).trans_le hn), toSymbols_rep]
    exact congrArg (Except.ok ∘ pack10) hzero

/-- The geometric sum, times c: (x ⊕ 1)(c·x^(n−1) ⊕ … ⊕ c) = c·(x^n ⊕ 1). -/
theorem polyEval_replicate (c : Sym) (n : Nat) (x : Sym) :
    gfmul (x ^^^ 1#10) (polyEval (List.replicate n c) x) = gfmul c (gfpow x n ^^^ 1#10) := by
  induction n with
  | zero => simp [gfpow]
  | succ n ih =>
    have lead : gfmul (x ^^^ 1#10) (gfmul c (gfpow x n)) = gfmul c (gfpow x (n + 1) ^^^ gfpow x n) := by
      rw [gfmul_comm, gfmul_assoc, gfmul_xor_right (gfpow x n), gfmul_one, gfpow]
    rw [List.replicate_succ, polyEval_cons, List.length_replicate, gfmul_xor_right, ih, lead, ← gfmul_xor_right,
      BitVec.xor_assoc, xor_cancel_left]

/-- The constant word of 1023 symbols vanishes at α^i, since α^(1023·i) = 1 and α^i ≠ 1. -/
theorem polyEval_replicate_eq_zero (c : Sym) {i : Nat} (hi : ¬ 1023 ∣ i) :
    polyEval (List.replicate 1023 c) (alphaPow i) = 0#10 := by
  have hpow : gfpow (alphaPow i) 1023 = 1#10 := by
    rw [← alphaPow_mul]
    exact (alphaPow_eq_one_iff _).mpr (Nat.dvd_mul_left _ _)
  have hsum := polyEval_replicate c 1023 (alphaPow i)
  rw [hpow, BitVec.xor_self, gfmul_zero] at hsum
  exact eq_zero_of_gfmul_eq_zero hsum fun h => hi ((alphaPow_eq_one_iff i).mp (BitVec.xor_eq_zero_iff.mp h))

/-- The constant word of 1023 symbols is a codeword (R133 (c)). -/
theorem rsRemainder_replicate (c : Sym) : rsRemainder (List.replicate 1015 c) = List.replicate 8 c := by
  refine ((eq_rsRemainder_iff List.length_replicate).mpr fun i hi h8 => ?_).symm
  rw [List.replicate_append_replicate]
  exact polyEval_replicate_eq_zero c fun h => absurd (Nat.le_of_dvd hi h) (by omega)

/-- Settles O36: the constant word of all 1023 symbols is a codeword. -/
theorem constantWordParity : Obligations.ConstantWordParity := by
  have parity (c : Byte) : rsEncode (rep 1015 c) = .ok (pack10 (List.replicate 8 (c.setWidth 10))) := by
    rw [rsEncode_ok (rep_length 1015 c).le, toSymbols_rep, rsRemainder_replicate]
  refine ⟨parity, (parity 0xFF).trans ?_⟩
  decide +kernel

/-! ### The codec and ENCODE (R122, R125, R143, R150) -/

theorem codecEncode_bch_ok {t : Strength} {data : Bytes} (h : data.length ≤ bchMaxDataBytes t) :
    codecEncode (.bch t) data = .ok (bchEncode t data) :=
  if_neg (Nat.not_lt.mpr h)

/-- Settles O13: by the sizes and by the length of every answer. -/
theorem paritySizes : Obligations.ParitySizes :=
  ⟨rfl, rfl, rfl, fun _ => rfl, fun _ _ _ => codecEncode_length⟩

/-- Settles O14: by the variant. -/
theorem codecEncodeIsItsVariant : Obligations.CodecEncodeIsItsVariant :=
  ⟨fun _ => ⟨rfl, rsEncode_error⟩, fun _ _ => ⟨rfl, rfl⟩, rfl, rfl, rfl⟩

/-- A completed result is what OUT holds (R29, R39). -/
theorem complete_outputIs {r : Bytes} {n : Nat} (hr : r.length = n) (hword : n < 2 ^ 32) (s : State) :
    OutputIs (complete r n s) r := by
  have hlen : (complete r n s).outLen.toNat = r.length := by simpa [hr] using hword
  refine ⟨rfl, hlen, fun k => ?_⟩
  simp only [outDefined, hlen, complete_outValid, complete_outBuf, true_and]
  by_cases hk : k < r.length
  · rw [if_pos hk]
    simpa [hk] using byteAt_store_inside s.outBuf 0 hk
  · simp [hk]

/-- A data command on written bytes within its limits leaves its function's answer in OUT, with no error. -/
theorem dataCommand_result {c : DataCommand} (hc : c.Sized) {s : State} {a : Act} {x r : Bytes} (he : s.err = none)
    (ha : s.act = some a) (hlegal : a.Legal) (hin : InputIs s x) (hlimit : x.length ≤ c.limit a)
    (hbuf : x.length ≤ inBufBytes) (hr : c.run a x = .ok r) :
    OutputIs (dataCommand c s) r ∧ (dataCommand c s).err = none := by
  obtain ⟨hlen, hbytes⟩ := hin
  have hread : readIn s s.inLen.toNat = x := by rw [hlen, readIn_eq hbytes]
  rw [dataCommand_ok he ha (hlen ▸ hlimit) (hlen ▸ hbuf) (hread ▸ hr)]
  exact ⟨complete_outputIs (hc.length a x r hlegal hr) (hc.isWord a hlegal) _, he⟩

/-- Settles O16: ENCODE completes with its codec's answer, by the codec. -/
theorem encodeResult : Obligations.EncodeResult := by
  intro s a data he ha hlegal hin hbuf hmax
  obtain ⟨r, hr, hlen⟩ := codecEncode_ok hmax
  obtain ⟨hout, herr⟩ := dataCommand_result encodeCommand_sized he ha hlegal hin hmax hbuf hr
  refine ⟨r, _, hr, fun hrs => ?_, fun b hb => ?_, rfl, hout, hlen.trans (legal_parity hlegal).symm, herr⟩
  · rwa [hrs] at hr
  · rw [hb] at hr hmax
    exact Except.ok.inj (hr.symm.trans (codecEncode_bch_ok hmax))

end Sys2Proof.Machine
end

section
/-! SUPPORT. The chunk family (41_chunk.md): no command meets E_CFG_GEOMETRY, what each part of a chunk holds, and the
data commands as functions of ACT and the input bytes. -/

open Sys2Proof

namespace Sys2Proof.Machine

/-! ### The geometry invariant (R162) -/

/-- The table meets the invariant in all eight combinations (R161, R122). -/
theorem geometry_holds (kind : EccKind) (wide : Bool) :
    bbmSize wide + kind.codec.paritySize ≤ kind.oobPerChunk := by
  cases kind <;> cases wide <;> decide

/-- An ACT that breaks the invariant fails its check (R162). -/
theorem checkAct_geometry_error {a : Act} (h : a.opc < a.bbm + a.parity) : checkAct a = .error .cfgGeometry :=
  if_pos h

/-- A built ACT can only miss the OOB budget (R162, R182). -/
theorem checkAct_buildAct_ne_geometry (p o : Nat) (kind : EccKind) (wide : Bool) :
    checkAct (buildAct p o kind wide) ≠ .error .cfgGeometry := by
  have hgeo : ¬ (buildAct p o kind wide).opc < (buildAct p o kind wide).bbm + (buildAct p o kind wide).parity :=
    Nat.not_lt.mpr (geometry_holds kind wide)
  rw [checkAct, if_neg hgeo]
  split <;> simp

theorem configureAct_ne_geometry (p o : Nat) (k : BitVec 4) (w : Bool) :
    configureAct p o k w ≠ .error .cfgGeometry := by
  unfold configureAct
  split
  · simp
  · split
    · simp
    · split
      · simp
      · exact checkAct_buildAct_ne_geometry p o _ w

theorem configureCommand_err_ne_geometry (s : State) (op : BitVec 4) :
    (configureCommand s).err ≠ some { code := .cfgGeometry, op := op } := by
  rcases configureCommand_cases s with ⟨a, -, ht⟩ | ⟨e, he, ht⟩
  · simp [ht]
  · have hne : e ≠ .cfgGeometry := by
      rintro rfl
      exact configureAct_ne_geometry _ _ _ _ he
    simp [ht, hne]

/-! ### The errors of the data commands (R224) -/

/-- The errors that the checks and the functions of the data commands can raise (R224). -/
def dataErrors : List ErrorCode := [.notConfigured, .oversizePage, .oversizeChunk, .oversizeRs, .oversizeBch, .inRange]

theorem oversize_mem_dataErrors (c : Codec) : c.oversize ∈ dataErrors := by
  cases c <;> simp [Codec.oversize, dataErrors]

theorem codecEncode_error_mem {c : Codec} {data : Bytes} {e : ErrorCode} (h : codecEncode c data = .error e) :
    e ∈ dataErrors :=
  codecEncode_error h ▸ oversize_mem_dataErrors c

theorem chunkProgram_error_mem {a : Act} {u : Bytes} {e : ErrorCode} (h : chunkProgram a u = .error e) :
    e ∈ dataErrors := by
  unfold chunkProgram at h
  split at h
  · cases h
    decide
  · split at h
    · rename_i he
      cases h
      exact codecEncode_error_mem he
    · cases h

theorem pageChunks_error_mem {a : Act} {y : Bytes} {n : Nat} {e : ErrorCode} (h : pageChunks a y n = .error e) :
    e ∈ dataErrors := by
  induction n with
  | zero => cases h
  | succ n ih =>
    unfold pageChunks at h
    split at h
    · rename_i he
      cases h
      exact ih he
    · split at h
      · rename_i he
        cases h
        exact chunkProgram_error_mem he
      · cases h

theorem pageProgram_error_mem {a : Act} {x : Bytes} {e : ErrorCode} (h : pageProgram a x = .error e) :
    e ∈ dataErrors := by
  unfold pageProgram at h
  split at h
  · cases h
    decide
  · split at h
    · rename_i he
      cases h
      exact pageChunks_error_mem he
    · cases h

/-- A data command records no error but those of R224's data command checks. -/
theorem dataCommand_err_mem {c : DataCommand} (hsize : ∀ a, c.oversize a ∈ dataErrors)
    (hrun : ∀ a x e, c.run a x = .error e → e ∈ dataErrors) {s : State} (he : s.err = none) {r : ErrorRecord}
    (h : (dataCommand c s).err = some r) : r.code ∈ dataErrors := by
  rcases dataCommand_cases c s with ⟨hne, -⟩ | ⟨-, e, n, hde, ht⟩ | ⟨-, a, out, -, -, -, -, ht⟩
  · exact absurd he hne
  · have hr : r = { code := e, op := opcodeOf c.instr } := by simpa [ht, he, eq_comm] using h
    subst hr
    rcases hde with ⟨-, rfl, -⟩ | ⟨a, -, ⟨-, rfl, -⟩ | ⟨-, -, rfl, -⟩ | ⟨-, -, hx, -⟩⟩
    · simp [dataErrors]
    · exact hsize a
    · simp [dataErrors]
    · exact hrun a _ _ hx
  · simp [ht, he] at h

theorem exec_err_mem {i : Instr} (hi : i ≠ .configure) {s t : State} (he : s.err = none) (hx : exec i s = .next t)
    {r : ErrorRecord} (h : t.err = some r) : r.code ∈ dataErrors := by
  cases i <;> cases hx
  case configure => exact absurd rfl hi
  case programPage =>
    exact dataCommand_err_mem (fun _ => by simp [pageCommand, dataErrors]) (fun _ _ _ => pageProgram_error_mem) he h
  case programChunk =>
    exact dataCommand_err_mem (fun _ => by simp [chunkCommand, dataErrors]) (fun _ _ _ => chunkProgram_error_mem) he h
  case encode =>
    exact dataCommand_err_mem (fun a => oversize_mem_dataErrors a.codec) (fun _ _ _ => codecEncode_error_mem) he h

/-- Settles O12: the table by its eight rows, CONFIGURE by the invariant, and the data commands by their errors. -/
theorem geometryErrorIsUnreachable : Obligations.GeometryErrorIsUnreachable := by
  refine ⟨fun _ => checkAct_geometry_error, fun kind wide => ?_, fun i s t op he hx hgeo => ?_⟩
  · refine ⟨_, _, ?_, rfl, rfl, geometry_holds kind wide⟩
    cases kind <;> cases wide <;> decide
  · by_cases hi : i = .configure
    · subst hi
      cases hx
      exact configureCommand_err_ne_geometry s op hgeo
    · exact absurd (exec_err_mem hi he hx hgeo) (by simp [dataErrors])

/-! ### The bytes of a chunk (R100, R164, R165) -/

theorem paddedUnit_length {a : Act} {u : Bytes} (h : u.length ≤ a.du) : (paddedUnit a u).length = a.du := by
  rw [paddedUnit, padRight_length, max_eq_left h]

theorem getElem?_slice (b : Bytes) (i j k : Nat) :
    (slice b i j)[k]? = if i + k < j then b[i + k]? else none := by
  rw [slice, List.getElem?_drop, List.getElem?_take]

theorem getElem?_rep {n k : Nat} (v : Byte) (h : k < n) : (rep n v)[k]? = some v := by
  simp [rep, h]

/-- The five parts of a chunk, by position (R100). -/
theorem getElem?_layChunk {a : Act} (h : a.Legal) {d parity : Bytes} (hd : d.length = a.du)
    (hp : parity.length = a.parity) {j : Nat} (hj : j < a.du + a.opc) :
    (layChunk a d parity)[j]? =
      if j < insertionPoint a then d[j]?
      else if j < insertionPoint a + a.bbm then some erased
      else if j < a.du + a.bbm then d[j - a.bbm]?
      else if j < a.du + a.bbm + a.parity then parity[j - (a.du + a.bbm)]?
      else some erased := by
  have hgeo := h.geometry
  have he : insertionPoint a ≤ a.du := Nat.min_le_right _ _
  simp only [layChunk, List.append_assoc, List.getElem?_append, slice_length, rep_length, hd, hp, min_self,
    min_eq_left he, Nat.sub_zero]
  by_cases hdata : j < insertionPoint a
  · rw [if_pos hdata, if_pos hdata, getElem?_slice, zero_add, if_pos hdata]
  rw [if_neg hdata, if_neg hdata]
  by_cases hmark : j < insertionPoint a + a.bbm
  · rw [if_pos (by omega), if_pos hmark, getElem?_rep _ (by omega)]
  rw [if_neg (by omega), if_neg hmark]
  by_cases hrest : j < a.du + a.bbm
  · rw [if_pos (by omega), if_pos hrest, getElem?_slice, if_pos (by omega)]
    congr 1
    omega
  rw [if_neg (by omega), if_neg hrest]
  by_cases hparity : j < a.du + a.bbm + a.parity
  · rw [if_pos (by omega), if_pos hparity]
    congr 1
    omega
  rw [if_neg (by omega), if_neg hparity, getElem?_rep _ (by omega)]

/-- Settles O19: the five parts by position, the parity being the codec's answer on the padded unit. -/
theorem chunkBytePositions : Obligations.ChunkBytePositions := by
  intro a u chunk h hc
  obtain ⟨hu, p, hp, rfl⟩ := (chunkProgram_ok_iff a u chunk).mp hc
  have hparity : p.length = a.parity := (codecEncode_length hp).trans (legal_parity h).symm
  exact ⟨p, hp, (chunkProgram_length h hc).trans (legal_chunkSize h).symm, legal_chunkSize h,
    fun j hj => getElem?_layChunk h (paddedUnit_length hu) hparity hj⟩

/-! ### PROGRAM_CHUNK (R169) -/

/-- CHUNK_PROGRAM answers on every input of at most du bytes: du lies within every codec's limit (R165, R168). -/
theorem chunkProgram_ok {a : Act} (h : a.Legal) {u : Bytes} (hu : u.length ≤ a.du) :
    ∃ chunk, chunkProgram a u = .ok chunk := by
  have hfits : (paddedUnit a u).length ≤ a.codec.maxInput := by
    have hdu := legal_du_cases h
    have hmax := maxInput_ge a.codec
    rw [paddedUnit_length hu]
    omega
  obtain ⟨p, hp, -⟩ := codecEncode_ok hfits
  exact ⟨_, (chunkProgram_ok_iff a u _).mpr ⟨hu, p, hp, rfl⟩⟩

/-- Settles O17: PROGRAM_CHUNK completes with CHUNK_PROGRAM's answer, since a data unit fits in IN. -/
theorem programChunkResult : Obligations.ProgramChunkResult := by
  intro s a u he ha h hin hu
  obtain ⟨chunk, hc⟩ := chunkProgram_ok h hu
  obtain ⟨hout, herr⟩ := dataCommand_result chunkCommand_sized he ha h hin hu (hu.trans (legal_input h).2) hc
  exact ⟨chunk, _, hc, rfl, hout, chunkCommand_sized.length a u chunk h hc, herr⟩

/-! ### Determinism of the data commands (R123, R167, R191) -/

/-- What a host can see of a command's outcome: STATUS, OUT_LEN and the defined bytes of OUT (R25, R29, R39). -/
def SameOutcome (s t : State) : Prop :=
  readReg .status s = readReg .status t ∧ s.outLen = t.outLen ∧ ∀ k, outDefined s k = outDefined t k

/-- STATUS is read off ACT, OUT_VALID and the error record (R25). -/
theorem statusWord_congr {s t : State} (hact : s.act = t.act) (hvalid : s.outValid = t.outValid)
    (herr : s.err = t.err) : statusWord s = statusWord t := by
  simp only [statusWord, configured, errFlag_eq, errCode, errOp, hact, hvalid, herr]

theorem raiseError_sameOutcome {s t : State} (hact : s.act = t.act) (herr : s.err = t.err) (c : ErrorCode)
    (op : BitVec 4) : SameOutcome (raiseError c op s) (raiseError c op t) :=
  ⟨statusWord_congr hact rfl (by simp [herr]), rfl, fun _ => by simp [outDefined]⟩

theorem complete_sameOutcome {s t : State} (hact : s.act = t.act) (herr : s.err = t.err) {r : Bytes} {n : Nat}
    (hr : r.length = n) (hword : n < 2 ^ 32) : SameOutcome (complete r n s) (complete r n t) := by
  obtain ⟨-, -, hs⟩ := complete_outputIs hr hword s
  obtain ⟨-, -, ht⟩ := complete_outputIs hr hword t
  exact ⟨statusWord_congr hact rfl herr, rfl, fun k => (hs k).trans (ht k).symm⟩

/-- On written input the checks, and what the function runs on, are those of ACT and the bytes alone (R150, R169,
R189). -/
theorem dataCommand_of_input (c : DataCommand) {s : State} {a : Act} {x : Bytes} (he : s.err = none)
    (ha : s.act = some a) (hin : InputIs s x) :
    dataCommand c s =
      if c.limit a < x.length then raiseError (c.oversize a) (opcodeOf c.instr) (clearResult s)
      else if inBufBytes < x.length then raiseError .inRange (opcodeOf c.instr) (clearResult s)
      else finish c a x (drew x.length (clearResult s)) := by
  obtain ⟨hlen, hbytes⟩ := hin
  simp only [dataCommand, unlessError_of_none he, dataBody, ha, hlen, readIn_eq hbytes]

theorem dataCommand_sameOutcome {c : DataCommand} (hc : c.Sized) {s t : State} {a : Act} {x : Bytes} (h : a.Legal)
    (has : s.act = some a) (hat : t.act = some a) (hes : s.err = none) (het : t.err = none) (hs : InputIs s x)
    (ht : InputIs t x) : SameOutcome (dataCommand c s) (dataCommand c t) := by
  have hact : s.act = t.act := has.trans hat.symm
  have herr : s.err = t.err := hes.trans het.symm
  rw [dataCommand_of_input c hes has hs, dataCommand_of_input c het hat ht]
  split
  · exact raiseError_sameOutcome hact herr _ _
  · split
    · exact raiseError_sameOutcome hact herr _ _
    · unfold finish
      split
      · rename_i r hr
        exact complete_sameOutcome hact herr (hc.length a x r h hr) (hc.isWord a h)
      · exact raiseError_sameOutcome hact herr _ _

/-- Settles O28: each data command is a function of ACT and the input bytes, up to what a host cannot see. -/
theorem equalInputsGiveEqualResults : Obligations.EqualInputsGiveEqualResults := by
  intro i s₁ s₂ t₁ t₂ a x hi h ha₁ ha₂ he₁ he₂ hin₁ hin₂ hx₁ hx₂
  cases i <;> cases hx₁ <;> cases hx₂
  case configure => exact absurd rfl hi
  case programPage => exact dataCommand_sameOutcome pageCommand_sized h ha₁ ha₂ he₁ he₂ hin₁ hin₂
  case programChunk => exact dataCommand_sameOutcome chunkCommand_sized h ha₁ ha₂ he₁ he₂ hin₁ hin₂
  case encode => exact dataCommand_sameOutcome encodeCommand_sized h ha₁ ha₂ he₁ he₂ hin₁ hin₂

end Sys2Proof.Machine
end

section
/-! SUPPORT. The page family (42_page.md): what CONFIGURE latches, reports and leaves unchanged, the slices of a padded
page, the bytes of a page image, and how the data commands complete. -/

open Sys2Proof

namespace Sys2Proof.Machine

/-! ### The checks of CONFIGURE (R161, R181, R182, R224) -/

theorem ceilDiv_eq (a : Nat) {b : Nat} (h : 0 < b) : ceilDiv a b = (a + b - 1) / b := by
  rw [ceilDiv, Nat.add_sub_assoc h]

theorem dataUnit_pos (kind : EccKind) : 0 < kind.dataUnit := by cases kind <;> decide

/-- The kinds 4 to 15 are reserved (R94). -/
theorem kindOf_eq_none_iff (k : BitVec 4) : kindOf k = none ↔ 3 < k.toNat := by
  revert k
  decide

/-- du and opc in terms of ECC_KIND (R94, R161). -/
theorem kindOf_sizes {k : BitVec 4} {kind : EccKind} (h : kindOf k = some kind) :
    kind.dataUnit = (if k = 1 then 512 else 516) ∧ kind.oobPerChunk = if k = 0 ∨ k = 2 then 12 else 16 := by
  revert k
  cases kind <;> decide

/-- A row of the tables is what the model makes of its ECC_KIND (R94, R121, R122, R161). -/
theorem kindTable_row {k : BitVec 4} {kind : EccKind} {codec : Codec} {du opc parity : Nat}
    (h : (k, kind, codec, du, opc, parity) ∈ kindTable) :
    kindOf k = some kind ∧ codec = kind.codec ∧ du = kind.dataUnit ∧ opc = kind.oobPerChunk ∧
      parity = kind.codec.paritySize := by
  simp only [kindTable, List.mem_cons, List.not_mem_nil, or_false, Prod.mk.injEq] at h
  rcases h with ⟨rfl, rfl, rfl, rfl, rfl, rfl⟩ | ⟨rfl, rfl, rfl, rfl, rfl, rfl⟩ | ⟨rfl, rfl, rfl, rfl, rfl, rfl⟩ |
    ⟨rfl, rfl, rfl, rfl, rfl, rfl⟩ <;> decide

/-- A built ACT meets the geometry invariant, so only the OOB budget is left to check (R162, R182). -/
theorem checkAct_buildAct (p o : Nat) (kind : EccKind) (wide : Bool) :
    checkAct (buildAct p o kind wide) =
      if p + o < ceilDiv p kind.dataUnit * kind.chunkSize then .error .cfgOobBudget
      else .ok (buildAct p o kind wide) :=
  if_neg (Nat.not_lt.mpr (geometry_holds kind wide))

section
variable {p o : Nat} {k : BitVec 4} {w : Bool}

theorem configureAct_of_zero (h : p = 0 ∨ o = 0) : configureAct p o k w = .error .cfgZeroSize := if_pos h

theorem configureAct_of_capacity (hz : ¬ (p = 0 ∨ o = 0)) (h : maxPageSize < p ∨ maxOobSize < o) :
    configureAct p o k w = .error .cfgCapacity := by
  rw [configureAct, if_neg hz, if_pos h]

theorem configureAct_of_reserved (hz : ¬ (p = 0 ∨ o = 0)) (hc : ¬ (maxPageSize < p ∨ maxOobSize < o))
    (h : kindOf k = none) : configureAct p o k w = .error .cfgKind := by
  rw [configureAct, if_neg hz, if_neg hc, h]

theorem configureAct_of_kind (hz : ¬ (p = 0 ∨ o = 0)) (hc : ¬ (maxPageSize < p ∨ maxOobSize < o)) {kind : EccKind}
    (h : kindOf k = some kind) :
    configureAct p o k w =
      if p + o < ceilDiv p kind.dataUnit * kind.chunkSize then .error .cfgOobBudget else .ok (buildAct p o kind w) := by
  rw [configureAct, if_neg hz, if_neg hc, h]
  exact checkAct_buildAct p o kind w

end

section
variable {s : State}

theorem configureCommand_of_ok {a : Act}
    (h : configureAct s.pageSize.toNat s.oobSize.toNat s.eccKind s.wideBus = .ok a) :
    configureCommand s = latch a (dropInstance s) := by
  rw [configureCommand, h]

theorem configureCommand_of_error {e : ErrorCode}
    (h : configureAct s.pageSize.toNat s.oobSize.toNat s.eccKind s.wideBus = .error e) :
    configureCommand s = raiseError e 1 (dropInstance s) := by
  rw [configureCommand, h]
  rfl

theorem configureCommand_err_of_error {e : ErrorCode}
    (h : configureAct s.pageSize.toNat s.oobSize.toNat s.eccKind s.wideBus = .error e) :
    (configureCommand s).err = some { code := e, op := 1 } := by
  simp [configureCommand_of_error h]

end

/-- CONFIGURE ends with an ACT and no error, or with its own error and no ACT (R183, R184). -/
theorem configureCommand_result (s : State) :
    ((configureCommand s).act ≠ none ∧ (configureCommand s).err = none) ∨
    ((configureCommand s).act = none ∧ ∃ c, (configureCommand s).err = some { code := c, op := 1 }) := by
  rcases configureCommand_cases s with ⟨a, -, ht⟩ | ⟨e, -, ht⟩ <;> simp [ht]

/-- Settles O7: the row of the table passes every check, and CONFIGURE latches the ACT built from it. -/
theorem configureLatchesTheGeometry : Obligations.ConfigureLatchesTheGeometry := by
  intro s kind codec du opc parity hrow hp ho hpm hom hb
  obtain ⟨hk, rfl, rfl, rfl, rfl⟩ := kindTable_row hrow
  rw [← ceilDiv_eq _ (dataUnit_pos kind)] at hb ⊢
  have hok : configureAct s.pageSize.toNat s.oobSize.toNat s.eccKind s.wideBus =
      .ok (buildAct s.pageSize.toNat s.oobSize.toNat kind s.wideBus) := by
    rw [configureAct_of_kind (by omega) (by omega) hk]
    exact if_neg (Nat.not_lt.mpr hb)
  exact congrArg Host.Outcome.next (configureCommand_of_ok hok)

/-- Settles O8: by the checks in their order, the last one the OOB budget of the kind's row. -/
theorem configureErrorOrder : Obligations.ConfigureErrorOrder := by
  intro s
  refine ⟨configureCommand s, rfl, ?_⟩
  by_cases hz : s.pageSize.toNat = 0 ∨ s.oobSize.toNat = 0
  · rw [if_pos hz, configureCommand_err_of_error (configureAct_of_zero hz)]
  rw [if_neg hz]
  by_cases hc : maxPageSize < s.pageSize.toNat ∨ maxOobSize < s.oobSize.toNat
  · rw [if_pos hc, configureCommand_err_of_error (configureAct_of_capacity hz hc)]
  rw [if_neg hc]
  cases hk : kindOf s.eccKind with
  | none =>
    rw [if_pos ((kindOf_eq_none_iff _).mp hk), configureCommand_err_of_error (configureAct_of_reserved hz hc hk)]
  | some kind =>
    obtain ⟨hdu, hopc⟩ := kindOf_sizes hk
    have hact := configureAct_of_kind (w := s.wideBus) hz hc hk
    rw [EccKind.chunkSize, ceilDiv_eq _ (dataUnit_pos kind)] at hact
    rw [if_neg (by simp [← kindOf_eq_none_iff, hk])]
    simp only [← hdu, ← hopc]
    split at hact
    · rename_i hb
      rw [if_pos hb, configureCommand_err_of_error hact]
    · rename_i hb
      rw [if_neg hb, configureCommand_of_ok hact]
      rfl

/-! ### Who configures PF (R33, R184) -/

/-- A CMD write, by offset or through the platform map, issues its command (R223). -/
theorem step_of_writesCmd {s : State} {w : Word} (h : WritesCmd s w) :
    ∃ rest, step s = issueCommand w { s with pending := rest } := by
  obtain ⟨loc, hnext, hloc⟩ := h
  obtain ⟨rest, hp⟩ := List.head?_eq_some_iff.mp hnext
  refine ⟨rest, ?_⟩
  rw [step_access hp]
  simp only [hostAccess, hloc]
  exact hostWrite_reg .cmd w _

theorem step_of_reset {s : State} (h : nextAccess s = some .reset) :
    ∃ rest, step s = .next (resetPF { s with pending := rest }) := by
  obtain ⟨rest, hp⟩ := List.head?_eq_some_iff.mp h
  exact ⟨rest, step_access hp⟩

/-- Settles O9: CONFIGURE ends in one of its two results, and no step but its CMD write gains an ACT. -/
theorem failedConfigureLeavesNoInstance : Obligations.FailedConfigureLeavesNoInstance := by
  refine ⟨fun s t hx he => ?_, fun s t hnone hst hsome => ?_⟩
  · cases hx
    rcases configureCommand_result s with ⟨-, hok⟩ | ⟨hact, herr⟩
    · exact absurd hok he
    · exact ⟨hact, by simp [configured, hact], herr⟩
  · rcases (resultsChangeOnlyByCommands s t hst).2 with hw | hreset | hact
    · obtain ⟨rest, hissue⟩ := step_of_writesCmd hw
      rw [hissue, issueCommand_of_decode (decode_encode .configure)] at hst
      cases hst
      rcases configureCommand_result { s with pending := rest } with ⟨-, hok⟩ | ⟨hact, -⟩
      · exact ⟨hw, hok⟩
      · exact absurd hact hsome
    · obtain ⟨rest, hr⟩ := step_of_reset hreset
      rw [hr] at hst
      cases hst
      exact absurd (resetPF_act _) hsome
    · exact absurd (hact.trans hnone) hsome

/-- Settles O10: latching and raising an error write neither operands nor buffers, and both leave OUT_LEN 0. -/
theorem configureFrame : Obligations.ConfigureFrame := by
  intro s t hx
  refine ⟨exec_sameOperands hx, ?_⟩
  cases hx
  rcases configureCommand_cases s with ⟨a, -, ht⟩ | ⟨e, -, ht⟩ <;> simp [ht, SameOutFrom]

/-! ### Padding and cutting byte strings (R11, R190) -/

/-- Padding does not see the padding bytes that an input already ends with. -/
theorem padRight_append_rep {n k : Nat} {b : Bytes} (h : b.length + k ≤ n) (v : Byte) :
    padRight n v (b ++ rep k v) = padRight n v b := by
  simp only [padRight, rep, List.length_append, List.length_replicate, List.append_assoc,
    List.replicate_append_replicate]
  congr 2
  omega

theorem getElem?_padRight_filler {n j : Nat} {b : Bytes} (hlo : b.length ≤ j) (hhi : j < n) (v : Byte) :
    (padRight n v b)[j]? = some v := by
  rw [padRight, List.getElem?_append_right hlo, getElem?_rep v (by omega)]

/-- Cutting inside the first part does not see what follows it. -/
theorem slice_append_of_le {b : Bytes} {j : Nat} (h : j ≤ b.length) (rest : Bytes) (i : Nat) :
    slice (b ++ rest) i j = slice b i j := by
  rw [slice, List.take_append_of_le_length h, slice]

theorem slice_append_length (b c : Bytes) : slice (b ++ c) b.length (b.length + c.length) = c := by
  rw [slice, List.take_of_length_le (by simp), List.drop_left]

theorem take_append_slice (b : Bytes) {i j : Nat} (h : i ≤ j) : b.take i ++ slice b i j = b.take j := by
  rw [slice, ← Nat.min_eq_left h, ← List.take_take, Nat.min_eq_left h, List.take_append_drop]

/-! ### The slices of a page (R185, R186) -/

/-- The chunks reach the end of the page, and the last one begins before it (R186). -/
theorem chunksNeeded_bounds {a : Act} (h : a.Legal) :
    1 ≤ a.chunksNeeded ∧ (a.chunksNeeded - 1) * a.du < a.pageSize ∧ a.pageSize ≤ a.chunksNeeded * a.du := by
  have hpos := h.pagePos
  rw [legal_chunksNeeded h, ceilDiv]
  rcases legal_du_cases h with hdu | hdu <;> rw [hdu] <;> omega

/-- The page's end cuts no more than the page does. -/
theorem pageSlice_eq {a : Act} {y : Bytes} (hy : y.length = a.pageSize) (k : Nat) :
    pageSlice a y k = slice y (k * a.du) ((k + 1) * a.du) := by
  rw [pageSlice, slice, slice, ← hy, ← List.take_take, List.take_length]

theorem pageSlice_length {a : Act} {y : Bytes} (hy : y.length = a.pageSize) (k : Nat) :
    (pageSlice a y k).length = min ((k + 1) * a.du) a.pageSize - k * a.du := by
  rw [pageSlice, slice_length, hy, min_assoc, min_self]

/-- Every slice fits in a data unit (R186, R194). -/
theorem pageSlice_length_le (a : Act) (y : Bytes) (k : Nat) : (pageSlice a y k).length ≤ a.du := by
  rw [pageSlice, slice_length, Nat.succ_mul]
  omega

/-- The first n slices are the page's first n data units (R186). -/
theorem flatMap_pageSlice {a : Act} {y : Bytes} (hy : y.length = a.pageSize) (n : Nat) :
    (List.range n).flatMap (pageSlice a y) = y.take (n * a.du) := by
  induction n with
  | zero => simp
  | succ n ih =>
    rw [List.range_succ, List.flatMap_append, ih, List.flatMap_singleton, pageSlice_eq hy,
      take_append_slice y (Nat.mul_le_mul_right _ (Nat.le_succ n))]

theorem pageSlice_length_of_not_last {a : Act} (h : a.Legal) {y : Bytes} (hy : y.length = a.pageSize) {k : Nat}
    (hk : k + 1 < a.chunksNeeded) : (pageSlice a y k).length = a.du := by
  obtain ⟨-, hlast, -⟩ := chunksNeeded_bounds h
  have hmono : (k + 1) * a.du ≤ (a.chunksNeeded - 1) * a.du := Nat.mul_le_mul_right _ (by omega)
  rw [pageSlice_length hy, min_eq_left (by omega), Nat.succ_mul, Nat.add_sub_cancel_left]

theorem pageSlice_length_of_last {a : Act} (h : a.Legal) {y : Bytes} (hy : y.length = a.pageSize) :
    (pageSlice a y (a.chunksNeeded - 1)).length = a.pageSize - (a.chunksNeeded - 1) * a.du := by
  obtain ⟨hone, -, hend⟩ := chunksNeeded_bounds h
  rw [pageSlice_length hy, Nat.sub_add_cancel hone, min_eq_right hend]

/-! ### Page and chunk padding (R165, R185, R190) -/

/-- CHUNK_PROGRAM depends on its input through the padded unit, when both fit in it (R165). -/
theorem chunkProgram_congr {a : Act} {u v : Bytes} (hu : u.length ≤ a.du) (hv : v.length ≤ a.du)
    (h : paddedUnit a u = paddedUnit a v) : chunkProgram a u = chunkProgram a v := by
  simp only [chunkProgram, if_neg (Nat.not_lt.mpr hu), if_neg (Nat.not_lt.mpr hv), h]

/-- PAGE_PROGRAM depends on its input through the padded page, when both fit in it (R185). -/
theorem pageProgram_congr {a : Act} {x y : Bytes} (hx : x.length ≤ a.pageSize) (hy : y.length ≤ a.pageSize)
    (h : paddedPage a x = paddedPage a y) : pageProgram a x = pageProgram a y := by
  simp only [pageProgram, if_neg (Nat.not_lt.mpr hx), if_neg (Nat.not_lt.mpr hy), h]

theorem chunkProgram_append_erased {a : Act} {u : Bytes} {n : Nat} (h : u.length + n ≤ a.du) :
    chunkProgram a (u ++ rep n erased) = chunkProgram a u :=
  chunkProgram_congr (by simpa using h) (by omega) (padRight_append_rep h erased)

theorem pageProgram_append_noPayload {a : Act} {x : Bytes} {n : Nat} (h : x.length + n ≤ a.pageSize) :
    pageProgram a (x ++ rep n noPayload) = pageProgram a x :=
  pageProgram_congr (by simpa using h) (by omega) (padRight_append_rep h noPayload)

/-- Settles O29: each padding absorbs its own padding byte at the end of the input. -/
theorem paddingBytesOfPageAndChunk : Obligations.PaddingBytesOfPageAndChunk :=
  fun _ _ _ => ⟨pageProgram_append_noPayload, chunkProgram_append_erased⟩

/-- Settles O21: by the slices' prefix of the page, and by the bounds of the chunk count. -/
theorem slicesPartitionThePage : Obligations.SlicesPartitionThePage := by
  intro a y h hy
  obtain ⟨-, hlast, hend⟩ := chunksNeeded_bounds h
  have hdu := legal_du_cases h
  have hle := pageSlice_length_le a y (a.chunksNeeded - 1)
  have hlen := pageSlice_length_of_last h hy
  refine ⟨?_, ?_, fun k hk => ⟨pageSlice_eq hy k, pageSlice_length_of_not_last h hy hk⟩, hlen, by omega, hle, ?_⟩
  · rw [legal_chunksNeeded h, ceilDiv_eq _ (by omega)]
  · rw [flatMap_pageSlice hy, List.take_of_length_le (hy ▸ hend)]
  · exact (chunkProgram_append_erased (by omega)).symm

/-! ### PAGE_PROGRAM's answer (R102, R185, R187, R194) -/

theorem pageProgram_ok_iff (a : Act) (x r : Bytes) :
    pageProgram a x = .ok r ↔ x.length ≤ a.pageSize ∧
      ∃ out, pageChunks a (paddedPage a x) a.chunksNeeded = .ok out ∧
        r = padRight (a.pageSize + a.oobSize) erased out := by
  unfold pageProgram
  split
  · simp
    omega
  · cases pageChunks a (paddedPage a x) a.chunksNeeded with
    | error e => simp
    | ok out => simp [eq_comm]; omega

/-- One more chunk: it is appended to those before it (R185, step 3). -/
theorem pageChunks_succ_ok_iff (a : Act) (y : Bytes) (n : Nat) (out : Bytes) :
    pageChunks a y (n + 1) = .ok out ↔
      ∃ before chunk, pageChunks a y n = .ok before ∧ chunkProgram a (pageSlice a y n) = .ok chunk ∧
        out = before ++ chunk := by
  rw [pageChunks]
  cases pageChunks a y n with
  | error e => simp
  | ok before =>
    cases chunkProgram a (pageSlice a y n) with
    | error e => simp
    | ok chunk => simp [eq_comm]

/-- Every slice is a valid chunk input, so the chunks of a page all answer (R194). -/
theorem pageChunks_ok {a : Act} (h : a.Legal) (y : Bytes) (n : Nat) : ∃ out, pageChunks a y n = .ok out := by
  induction n with
  | zero => exact ⟨[], rfl⟩
  | succ n ih =>
    obtain ⟨before, hbefore⟩ := ih
    obtain ⟨chunk, hchunk⟩ := chunkProgram_ok h (pageSlice_length_le a y n)
    exact ⟨_, (pageChunks_succ_ok_iff a y n _).mpr ⟨before, chunk, hbefore, hchunk, rfl⟩⟩

theorem pageProgram_ok {a : Act} (h : a.Legal) {x : Bytes} (hx : x.length ≤ a.pageSize) :
    ∃ r, pageProgram a x = .ok r := by
  obtain ⟨out, hout⟩ := pageChunks_ok h (paddedPage a x) a.chunksNeeded
  exact ⟨_, (pageProgram_ok_iff a x _).mpr ⟨hx, out, hout, rfl⟩⟩

/-- Chunk k lies at [k·chunk_size, (k+1)·chunk_size) (R102). -/
theorem pageChunks_slice {a : Act} (h : a.Legal) {y : Bytes} {n : Nat} {out : Bytes}
    (ho : pageChunks a y n = .ok out) {k : Nat} (hk : k < n) :
    chunkProgram a (pageSlice a y k) = .ok (slice out (k * (a.du + a.opc)) ((k + 1) * (a.du + a.opc))) := by
  induction n generalizing out with
  | zero => exact absurd hk (Nat.not_lt_zero k)
  | succ n ih =>
    obtain ⟨before, chunk, hbefore, hchunk, rfl⟩ := (pageChunks_succ_ok_iff a y n out).mp ho
    have hlen := pageChunks_length h y hbefore
    rcases Nat.lt_succ_iff_lt_or_eq.mp hk with hlt | rfl
    · rw [slice_append_of_le (hlen ▸ Nat.mul_le_mul_right _ hlt), ih hbefore hlt]
    · rw [Nat.succ_mul, ← hlen, ← chunkProgram_length h hchunk, slice_append_length, hchunk]

/-- Settles O20: the chunks lie side by side from offset 0, and the filler follows them. -/
theorem pageBytePositions : Obligations.PageBytePositions := by
  intro a x r h hr
  refine ⟨pageProgram_length h hr, ?_⟩
  obtain ⟨-, out, hout, rfl⟩ := (pageProgram_ok_iff a x r).mp hr
  have hlen : out.length = a.required := (pageChunks_length h _ hout).trans (legal_required h).symm
  refine ⟨fun k hk => ?_, fun j hlo hhi => getElem?_padRight_filler (hlen ▸ hlo) hhi erased⟩
  have hend : (k + 1) * (a.du + a.opc) ≤ out.length := by
    rw [hlen, legal_required h]
    exact Nat.mul_le_mul_right _ hk
  rw [legal_chunkSize h, padRight, slice_append_of_le hend]
  exact pageChunks_slice h hout hk

/-- Settles O22: slices and codec inputs are at most a data unit, which every codec accepts. -/
theorem innerErrorsAreUnreachable : Obligations.InnerErrorsAreUnreachable := by
  intro a x h hx
  have hdu := legal_du_cases h
  have hmax := maxInput_ge a.codec
  refine ⟨fun k => ?_, by omega, rfl, bchMaxDataBytes_ge, fun d hd => ?_, pageProgram_ok h hx⟩
  · have hle := pageSlice_length_le a (paddedPage a x) k
    exact ⟨hle, paddedUnit_length hle⟩
  · obtain ⟨p, hp, -⟩ := codecEncode_ok (c := a.codec) (data := d) (by omega)
    exact ⟨p, hp⟩

/-! ### The data commands complete (R150, R169, R189, R258) -/

/-- A data command within its limits whose function answers stores the answer, OUT_LEN, OUT_VALID and the draws, and
changes nothing else. -/
theorem dataCommand_completes {c : DataCommand} {s : State} {a : Act} {r : Bytes} (he : s.err = none)
    (ha : s.act = some a) (hb : s.inLen.toNat ≤ inBufBytes) (hl : s.inLen.toNat ≤ c.limit a)
    (hr : c.run a (readIn s s.inLen.toNat) = .ok r) :
    dataCommand c s = { s with
      outBuf := Buffer.store s.outBuf 0 r, outLen := BitVec.ofNat 32 (c.size a), outValid := true
      freeCount := s.freeCount + s.inLen.toNat } :=
  dataCommand_ok he ha hl hb hr

/-- Settles O15: the input is what PF reads from IN, and each command's function answers on it. -/
theorem dataCommandsComplete : Obligations.DataCommandsComplete := by
  intro s a he ha h hb
  have hlen := readIn_length s s.inLen.toNat
  refine ⟨readIn s s.inLen.toNat, hlen, fun k b => readIn_of_written, fun hl => ?_, fun hl => ?_, fun hl => ?_⟩
  · obtain ⟨r, hr⟩ := pageProgram_ok h (hlen.trans_le hl)
    exact ⟨r, hr, congrArg Host.Outcome.next (dataCommand_completes (c := pageCommand) he ha hb hl hr)⟩
  · obtain ⟨r, hr⟩ := chunkProgram_ok h (hlen.trans_le hl)
    rw [← legal_chunkSize h]
    exact ⟨r, hr, congrArg Host.Outcome.next (dataCommand_completes (c := chunkCommand) he ha hb hl hr)⟩
  · obtain ⟨r, hr, -⟩ := codecEncode_ok (c := a.codec) (hlen.trans_le hl)
    rw [← legal_parity h]
    exact ⟨r, hr, congrArg Host.Outcome.next (dataCommand_completes (c := encodeCommand) he ha hb hl hr)⟩

/-- Settles O18: PROGRAM_PAGE completes with PAGE_PROGRAM's answer, which fits in OUT. -/
theorem programPageResult : Obligations.ProgramPageResult := by
  intro s a x he ha h hin hx
  obtain ⟨r, hr⟩ := pageProgram_ok h hx
  obtain ⟨hout, herr⟩ := dataCommand_result pageCommand_sized he ha h hin hx (hx.trans (legal_input h).1) hr
  have hlen := pageProgram_length h hr
  exact ⟨r, _, hr, rfl, hout, hlen, hlen.trans_le (legal_image h).1, herr⟩

end Sys2Proof.Machine
end

section
/-! SUPPORT. The exception family (60_exceptions.md): how a CMD write is dispatched with and without an error recorded,
which check of a data command reports, and what a command that raises an error leaves unchanged. -/

open Sys2Proof

namespace Sys2Proof.Machine

/-! ### The dispatch of CMD writes (R223) -/

/-- With an error recorded every command but CONFIGURE is dropped (R223). -/
theorem exec_dropped {i : Instr} {s : State} (hi : i ≠ .configure) (he : s.err ≠ none) : exec i s = .next s := by
  obtain ⟨e, he⟩ := Option.ne_none_iff_exists'.mp he
  have dropped (c : DataCommand) : dataCommand c s = s := unlessError_of_some he _
  cases i with
  | configure => exact absurd rfl hi
  | programPage => exact congrArg Host.Outcome.next (dropped pageCommand)
  | programChunk => exact congrArg Host.Outcome.next (dropped chunkCommand)
  | encode => exact congrArg Host.Outcome.next (dropped encodeCommand)

/-- An ILLEGAL word is the ILLEGAL entry, with its bits 3:0 as OPCODE (R97, R223). -/
theorem issueCommand_of_illegal {w : Word} {e : DecodeError} (h : decode w = .error e) (s : State) :
    issueCommand w s = .next (illegalCommand (opcodeField w) s) := by
  simp [issueCommand, h]

/-- With an error recorded every CMD word but CONFIGURE's, legal or ILLEGAL, is dropped (R223). -/
theorem issueCommand_dropped {w : Word} {s : State} (he : s.err ≠ none) (hw : decode w ≠ .ok .configure) :
    issueCommand w s = .next s := by
  cases hd : decode w with
  | ok i =>
    rw [issueCommand_of_decode hd]
    exact exec_dropped (fun hi => hw (hi ▸ hd)) he
  | error e =>
    rw [issueCommand_of_illegal hd]
    rcases illegalCommand_cases (opcodeField w) s with ⟨-, hs⟩ | ⟨hnone, -⟩
    · rw [hs]
    · exact absurd hnone he

/-- With no error recorded an ILLEGAL word clears the result and records E_ILLEGAL_CMD (R222, R223). -/
theorem illegalCommand_of_none {s : State} (he : s.err = none) (op : BitVec 4) :
    illegalCommand op s =
      { s with outValid := false, outLen := 0, err := some { code := .illegalCmd, op := op } } := by
  rw [illegalCommand, unlessError_of_none he]
  simp [raiseError, clearResult, he]

/-- A write that reaches CMD, whatever location names it, issues its word with the access consumed (R61, R223). -/
theorem step_of_write_cmd {s : State} {rest : List Access} {loc : Loc} {w : Word}
    (hp : s.pending = .write loc 32 w :: rest) (hloc : resolve loc = .ok (.reg, 0)) :
    step s = issueCommand w { s with pending := rest } := by
  rw [step_access hp]
  simp only [hostAccess, hloc]
  exact hostWrite_reg .cmd w _

/-- Settles O5: dropped words first; of the others a command runs, and an ILLEGAL word meets no recorded error. -/
theorem dispatchOfEveryCmdWrite : Obligations.DispatchOfEveryCmdWrite := by
  intro s rest loc w hp hloc
  rw [step_of_write_cmd hp hloc]
  by_cases hdrop : s.err ≠ none ∧ decode w ≠ .ok .configure
  · rw [if_pos hdrop]
    exact issueCommand_dropped hdrop.1 hdrop.2
  rw [if_neg hdrop]
  cases hd : decode w with
  | ok i => exact issueCommand_of_decode hd _
  | error e =>
    have he : s.err = none := by
      by_contra hne
      exact hdrop ⟨hne, by simp [hd]⟩
    rw [issueCommand_of_illegal hd, illegalCommand_of_none (s := { s with pending := rest }) he]
    rfl

/-! ### The error state ends by CONFIGURE or reset (R225) -/

/-- CONFIGURE clears the record before anything else, so it does not see it (R225). -/
theorem configureCommand_clearErr (s : State) : configureCommand { s with err := none } = configureCommand s := rfl

/-- Settles O39: of the steps that can touch the record, a CMD write of another word is dropped, and CONFIGURE starts by
clearing it. -/
theorem errorStateEndsByConfigureOrReset : Obligations.ErrorStateEndsByConfigureOrReset := by
  refine ⟨fun s t e he hst => ?_, fun s t hreset hst => ?_, fun s => ?_, fun i s => exec_dropped⟩
  · rcases (resultsChangeOnlyByCommands s t hst).1 with ⟨w, hw⟩ | hreset | ⟨-, -, -, herr⟩
    · by_cases hd : decode w = .ok .configure
      · exact .inr (.inr (eq_encode_of_decode hd ▸ hw))
      · obtain ⟨rest, hissue⟩ := step_of_writesCmd hw
        rw [hissue, issueCommand_dropped (by simp [he]) hd] at hst
        cases hst
        exact .inl he
    · exact .inr (.inl hreset)
    · exact .inl (herr.trans he)
  · obtain ⟨rest, hr⟩ := step_of_reset hreset
    rw [hr] at hst
    cases hst
    exact resetPF_err _
  · refine ⟨_, rfl, congrArg Host.Outcome.next (configureCommand_clearErr s), ?_⟩
    rcases configureCommand_result s with ⟨hact, herr⟩ | ⟨-, herr⟩
    · exact .inl ⟨herr, Option.isSome_iff_ne_none.mpr hact⟩
    · exact .inr herr

/-! ### What an error and a result leave unchanged (R65, R222) -/

/-- A CONFIGURE that ends with an error left no ACT and no result, and wrote no OUT byte (R184, R222). -/
theorem configureCommand_error_frame {s : State} (h : (configureCommand s).err ≠ none) :
    (∃ c, (configureCommand s).err = some { code := c, op := 1 }) ∧ (configureCommand s).outValid = false ∧
      (configureCommand s).outLen = 0 ∧ SameOutFrom 0 s (configureCommand s) ∧ (configureCommand s).act = none := by
  rcases configureCommand_cases s with ⟨a, -, ht⟩ | ⟨e, -, ht⟩
  · simp [ht] at h
  · simp [ht, SameOutFrom]

/-- A data command that raises an error leaves no result and wrote no OUT byte (R65, R222). -/
theorem dataCommand_error_frame {c : DataCommand} {s : State} (he : s.err = none) (h : (dataCommand c s).err ≠ none) :
    (∃ e, (dataCommand c s).err = some { code := e, op := opcodeOf c.instr }) ∧
      (dataCommand c s).outValid = false ∧ (dataCommand c s).outLen = 0 ∧ SameOutFrom 0 s (dataCommand c s) := by
  rcases dataCommand_cases c s with ⟨hne, -⟩ | ⟨-, e, n, -, ht⟩ | ⟨-, a, r, -, -, -, -, ht⟩
  · exact absurd he hne
  · simp [ht, he, SameOutFrom]
  · simp [ht, he] at h

/-- Settles O24: by the command, CONFIGURE or a data command; neither writes an operand. -/
theorem errorsLeaveNoPartialResult : Obligations.ErrorsLeaveNoPartialResult := by
  intro i s t he hx herr
  have hsame := exec_sameOperands hx
  rcases exec_cases hx with ⟨rfl, rfl⟩ | ⟨hi, c, -, rfl, rfl⟩
  · obtain ⟨hrecord, hvalid, hlen, hout, hact⟩ := configureCommand_error_frame herr
    exact ⟨hrecord, hvalid, hlen, hout, hsame, hact⟩
  · obtain ⟨hrecord, hvalid, hlen, hout⟩ := dataCommand_error_frame he herr
    exact ⟨hrecord, hvalid, hlen, hout, hsame, by rw [if_neg hi, dataCommand_act]⟩

/-- A completed result writes the offsets of its own bytes and no other (R65). -/
theorem complete_sameOutFrom (r : Bytes) (n : Nat) (s : State) : SameOutFrom r.length s (complete r n s) :=
  fun _ hx => byteAt_store_of_outside (.inr (by omega))

/-- A data command writes OUT[0..OUT_LEN) at most, and nothing when it leaves no result (R65, R222). -/
theorem dataCommand_outFrame {c : DataCommand} (hc : c.Sized) {s : State} (hlegal : ∀ a, s.act = some a → a.Legal) :
    ((dataCommand c s).outValid = false → SameOutFrom 0 s (dataCommand c s)) ∧
    (s.err = none → SameOutFrom (dataCommand c s).outLen.toNat s (dataCommand c s)) := by
  rcases dataCommand_cases c s with ⟨-, ht⟩ | ⟨-, e, n, -, ht⟩ | ⟨-, a, r, ha, -, -, hr, ht⟩
  · rw [ht]
    exact ⟨fun _ _ _ => rfl, fun _ _ _ => rfl⟩
  · rw [ht]
    exact ⟨fun _ _ _ => rfl, fun _ _ _ => rfl⟩
  · have hl := hlegal a ha
    have hlen : r.length = (BitVec.ofNat 32 (c.size a)).toNat := by
      rw [hc.length a _ r hl hr, BitVec.toNat_ofNat, Nat.mod_eq_of_lt (hc.isWord a hl)]
    rw [ht]
    exact ⟨by simp, fun _ => hlen ▸ complete_sameOutFrom r _ _⟩

/-- Settles O25: the operands and ACT by what no data command writes, the drop by the error gate, OUT by the result's
length. -/
theorem dataCommandFrame : Obligations.DataCommandFrame := by
  intro i s t hi hlegal hx
  have hsame := exec_sameOperands hx
  have hdrop : s.err ≠ none → t = s := fun he => by
    rw [exec_dropped hi he] at hx
    exact (Host.Outcome.next.inj hx).symm
  rcases exec_cases hx with ⟨rfl, -⟩ | ⟨-, c, hc, -, rfl⟩
  · exact absurd rfl hi
  · exact ⟨hsame, dataCommand_act c s, hdrop, dataCommand_outFrame hc hlegal⟩

/-! ### The first failing check of a data command (R224) -/

/-- A data command whose function answers on every input within its limit. -/
def DataCommand.Answers (c : DataCommand) : Prop :=
  ∀ (a : Act) (x : Bytes), a.Legal → x.length ≤ c.limit a → ∃ r, c.run a x = .ok r

theorem pageCommand_answers : pageCommand.Answers := fun _ _ h hx => pageProgram_ok h hx

theorem chunkCommand_answers : chunkCommand.Answers := fun _ _ h hx => chunkProgram_ok h hx

theorem encodeCommand_answers : encodeCommand.Answers := fun _ _ _ hx => (codecEncode_ok hx).imp fun _ h => h.1

section
variable {c : DataCommand} {s : State}

/-- Without an ACT the first check fails (R224). -/
theorem dataCommand_err_of_unconfigured (he : s.err = none) (ha : s.act = none) :
    (dataCommand c s).err = some { code := .notConfigured, op := opcodeOf c.instr } := by
  simp [dataCommand, unlessError_of_none he, dataBody, ha, he]

variable {a : Act}

/-- With an ACT the command's limit is checked first, then IN's size, and the function raises nothing (R66, R224). -/
theorem dataCommand_err_of_act (hc : c.Answers) (he : s.err = none) (ha : s.act = some a) (h : a.Legal) :
    (dataCommand c s).err =
      if c.limit a < s.inLen.toNat then some { code := c.oversize a, op := opcodeOf c.instr }
      else if inBufBytes < s.inLen.toNat then some { code := .inRange, op := opcodeOf c.instr }
      else none := by
  by_cases hl : c.limit a < s.inLen.toNat
  · simp [dataCommand, unlessError_of_none he, dataBody, ha, hl, he]
  by_cases hb : inBufBytes < s.inLen.toNat
  · simp [dataCommand, unlessError_of_none he, dataBody, ha, hl, hb, he]
  obtain ⟨r, hr⟩ := hc a (readIn s s.inLen.toNat) h (by simpa using hl)
  rw [if_neg hl, if_neg hb, dataCommand_ok he ha (not_lt.mp hl) (not_lt.mp hb) hr]
  exact he

/-- A command whose limit lies within IN reports an oversize input and nothing else (R66). -/
theorem dataCommand_err_of_limit_le (hc : c.Answers) (he : s.err = none) (ha : s.act = some a) (h : a.Legal)
    (hfit : c.limit a ≤ inBufBytes) :
    (dataCommand c s).err =
      if c.limit a < s.inLen.toNat then some { code := c.oversize a, op := opcodeOf c.instr } else none := by
  rw [dataCommand_err_of_act hc he ha h]
  by_cases hl : c.limit a < s.inLen.toNat
  · rw [if_pos hl, if_pos hl]
  · rw [if_neg hl, if_neg hl, if_neg (by omega)]

/-- A Reed-Solomon ENCODE reports an input above 1015 bytes and nothing else: such a message fits in IN (R66, R150). -/
theorem encode_err_of_reedSolomon (he : s.err = none) (ha : s.act = some a) (h : a.Legal)
    (hcodec : a.codec = .reedSolomon) :
    (dataCommand encodeCommand s).err =
      if 1015 < s.inLen.toNat then some { code := .oversizeRs, op := 4 } else none := by
  have hlimit : encodeCommand.limit a = 1015 := congrArg Codec.maxInput hcodec
  have hsize : encodeCommand.oversize a = .oversizeRs := congrArg Codec.oversize hcodec
  have hfit : encodeCommand.limit a ≤ inBufBytes := hlimit ▸ rsMessageLength_le_inBufBytes
  rw [dataCommand_err_of_limit_le encodeCommand_answers he ha h hfit, hlimit, hsize]
  rfl

/-- A BCH ENCODE reports an input above its codec's limit, else one above IN's size (R66, R150). -/
theorem encode_err_of_bch {t : Strength} (he : s.err = none) (ha : s.act = some a) (h : a.Legal)
    (hcodec : a.codec = .bch t) :
    (dataCommand encodeCommand s).err =
      if bchMaxDataBytes t < s.inLen.toNat then some { code := .oversizeBch, op := 4 }
      else if inBufBytes < s.inLen.toNat then some { code := .inRange, op := 4 } else none := by
  have hlimit : encodeCommand.limit a = bchMaxDataBytes t := congrArg Codec.maxInput hcodec
  have hsize : encodeCommand.oversize a = .oversizeBch := congrArg Codec.oversize hcodec
  rw [dataCommand_err_of_act encodeCommand_answers he ha h, hlimit, hsize]
  rfl

end

/-- Settles O23: unconfigured every command reports that; a page, a data unit and a Reed-Solomon message fit in IN, so
only a BCH ENCODE gets as far as IN's size. -/
theorem dataCommandErrorOrder : Obligations.DataCommandErrorOrder := by
  intro s he hlegal
  cases ha : s.act with
  | none =>
    exact ⟨⟨_, rfl, dataCommand_err_of_unconfigured he ha⟩, ⟨_, rfl, dataCommand_err_of_unconfigured he ha⟩,
      ⟨_, rfl, dataCommand_err_of_unconfigured he ha⟩⟩
  | some a =>
    have h := hlegal a ha
    obtain ⟨hpage, hdu⟩ := legal_input h
    refine ⟨⟨_, rfl, dataCommand_err_of_limit_le pageCommand_answers he ha h hpage⟩,
      ⟨_, rfl, dataCommand_err_of_limit_le chunkCommand_answers he ha h hdu⟩, _, rfl, ?_⟩
    cases hcodec : a.codec with
    | reedSolomon => simpa only [hcodec] using encode_err_of_reedSolomon he ha h hcodec
    | bch t => simpa only [hcodec] using encode_err_of_bch he ha h hcodec

end Sys2Proof.Machine
end

section
/-! SUPPORT. The reset and hazard family (70_reset_and_hazards.md): the reset input, PF straight after reset, and that
data commands do not see the configuration registers. -/

open Sys2Proof

namespace Sys2Proof.Machine

/-! ### Reset (R250) -/

/-- Settles O43: the step performs the oldest access, and the reset input keeps the host's side alone. -/
theorem resetSetsEveryPiece : Obligations.ResetSetsEveryPiece := fun _ _ hp => step_access hp

/-! ### PF straight after reset (R251) -/

/-- Every command but CONFIGURE is a data command, the same one in every state (R92, R150, R169, R189). -/
theorem exec_eq_dataCommand {i : Instr} (hi : i ≠ .configure) :
    ∃ c : DataCommand, c.instr = i ∧ ∀ s, exec i s = .next (dataCommand c s) := by
  cases i with
  | configure => exact absurd rfl hi
  | programPage => exact ⟨pageCommand, rfl, fun _ => rfl⟩
  | programChunk => exact ⟨chunkCommand, rfl, fun _ => rfl⟩
  | encode => exact ⟨encodeCommand, rfl, fun _ => rfl⟩

/-- A data command without an ACT records E_NOT_CONFIGURED and leaves PF unconfigured (R224, R251). -/
theorem exec_of_unconfigured {i : Instr} {s : State} (hi : i ≠ .configure) (ha : s.act = none) (he : s.err = none) :
    ∃ t, exec i s = .next t ∧ t.err = some { code := .notConfigured, op := opcodeOf i } ∧ t.act = none := by
  obtain ⟨c, rfl, hexec⟩ := exec_eq_dataCommand hi
  exact ⟨_, hexec s, dataCommand_err_of_unconfigured he ha, (dataCommand_act c s).trans ha⟩

/-- Settles O11: after reset there is no ACT, data commands need one, and the defaults are the BCH4 row of the tables,
whose 4 chunks of 528 bytes are exactly 2048 + 64. -/
theorem defaultGeometryAfterReset : Obligations.DefaultGeometryAfterReset := by
  have hlatch := configureLatchesTheGeometry State.reset .bch4 (.bch .four) 516 12 7 (by decide) (by decide) (by decide)
    maxPageSize_ge maxOobSize_ge (by decide)
  exact ⟨rfl, fun _ _ => exec_of_unconfigured, ⟨rfl, rfl, rfl, rfl⟩, _, hlatch, rfl, rfl⟩

/-! ### Data commands and the configuration registers (R33, R183, R253) -/

/-- `s` with other values in PAGE_SIZE, OOB_SIZE and ECC_CFG. -/
def withConfig (p o : Word) (k : BitVec 4) (w : Bool) (s : State) : State :=
  { s with pageSize := p, oobSize := o, eccKind := k, wideBus := w }

section
variable (p o : Word) (k : BitVec 4) (w : Bool)

/-- The end of a data command looks at its function's answer only. -/
theorem finish_withConfig (c : DataCommand) (a : Act) (x : Bytes) (s : State) :
    finish c a x (withConfig p o k w s) = withConfig p o k w (finish c a x s) := by
  unfold finish
  cases c.run a x <;> rfl

/-- A data command checks and reads ACT, IN_LEN and IN only (R150, R169, R189). -/
theorem dataBody_withConfig (c : DataCommand) (s : State) :
    dataBody c (withConfig p o k w s) = withConfig p o k w (dataBody c s) := by
  have hact : (withConfig p o k w s).act = s.act := rfl
  have hlen : (withConfig p o k w s).inLen = s.inLen := rfl
  simp only [dataBody, hact, hlen]
  cases s.act with
  | none => rfl
  | some a =>
    dsimp only
    split
    · rfl
    · split
      · rfl
      · exact finish_withConfig p o k w c a (readIn s s.inLen.toNat) (drew s.inLen.toNat (clearResult s))

/-- Nor does the error-state gate look at the configuration registers (R223). -/
theorem dataCommand_withConfig (c : DataCommand) (s : State) :
    dataCommand c (withConfig p o k w s) = withConfig p o k w (dataCommand c s) := by
  cases he : s.err with
  | some e => rw [dataCommand, dataCommand, unlessError_of_some he, unlessError_of_some (s := withConfig p o k w s) he]
  | none =>
    rw [dataCommand, dataCommand, unlessError_of_none he, unlessError_of_none (s := withConfig p o k w s) he]
    exact dataBody_withConfig p o k w c s

end

/-- Settles O27: the run with the other register values ends in the same state with those values, result bytes
included, since the draws for unwritten bytes are the same too. -/
theorem dataCommandsIgnoreConfigRegisters : Obligations.DataCommandsIgnoreConfigRegisters := by
  intro i s t p o k w hi hx
  obtain ⟨c, -, hexec⟩ := exec_eq_dataCommand hi
  obtain rfl : dataCommand c s = t := Host.Outcome.next.inj ((hexec s).symm.trans hx)
  refine ⟨withConfig p o k w (dataCommand c s), ?_, rfl, fun _ => rfl⟩
  rw [← dataCommand_withConfig]
  exact hexec (withConfig p o k w s)

end Sys2Proof.Machine
end

section
/-! SUPPORT. A step with no host access left (70_reset_and_hazards.md R259; 60_exceptions.md R235). -/

namespace Sys2Proof.Machine

/-- Settles O6: the host's turn performs the oldest pending access, and here there is none. -/
theorem idleStepHoldsState : Obligations.IdleStepHoldsState := fun _ hp => step_idle hp

end Sys2Proof.Machine
end
